-- ==== Sys2Proof/Word.lean ====
section
/-! DEFINITION. The word types of MEPF (spec/10_state.md R10, spec/30_encoding.md R57, R62, R65): what the spec
treats as bits. All values are unsigned and bit 0 is the least significant bit (R7). -/
namespace Sys2Proof

/-- A payload byte, the operand of REQ, the active byte (R13, R59, R92). -/
abbrev Byte := BitVec 8

/-- The countdown register `tmr` and the reload parameters; TMR_WIDTH = 16 (R19, D8). -/
abbrev TimerWord := BitVec 16

/-- The command word on the port `cmd`; CMD_WIDTH = 11 (R57, D13). -/
abbrev CommandWord := BitVec 11

/-- The event vector `ev` = (rst, svc, cnt), bit 2 down to bit 0 (R62). -/
abbrev EventVector := BitVec 3

/-- `bit_index`, 0..7, arithmetic modulo 8 (R16, D7). -/
abbrev BitIndex := BitVec 3

/-- The sequence position `pos`, 0..31 (R17). -/
abbrev Pos := BitVec 5

/-- The two sticky fault bits (R24). -/
abbrev FaultBits := BitVec 2

/-- The sixteen half-cells of one byte, the first one sent in bit 15 (R65). -/
abbrev HalfCells := BitVec 16

/-- The thirty-two half-cells of a frame, half-cell 0 in bit 31 (R65). -/
abbrev FrameCells := BitVec 32

end Sys2Proof
end

