-- ==== Sys2Proof/Syntax.lean ====
section
/-! DEFINITION. The operations of MEPF (spec/30_encoding.md R56): one constructor for each row of
spec/opcode_table.json. MEPF is no instruction-set processor; "instruction" means "operation" (R3). -/
namespace Sys2Proof

/-- The fifteen rows of the opcode table. The operand bits a command ignores (R61) are no part of it. -/
inductive Instr where
  /-- NOP: no request in this cycle (R111). -/
  | nop
  /-- REQ byte: `request_transmission(byte)` (R112, R113). -/
  | req (byte : Byte)
  /-- START: start the Tick Source (R114). -/
  | start
  /-- SUSPEND: suspend tick delivery (R115). -/
  | suspend
  /-- RESUME: enable tick delivery (R116). -/
  | resume
  /-- ILLEGAL, the reserved opcode 5 (R60, R117). -/
  | illegal5
  /-- ILLEGAL, the reserved opcode 6 (R60, R117). -/
  | illegal6
  /-- ILLEGAL, the reserved opcode 7 (R60, R117). -/
  | illegal7
  /-- RESET, selected by `ev[2]` (R150). -/
  | reset
  /-- SERVICE, the tick handler, selected by `ev[1]` (R81). -/
  | service
  /-- RELOAD, the first part of SERVICE (R79). -/
  | reload
  /-- ACK, the second part of SERVICE (R80). -/
  | ack
  /-- TICK, `on_tick()`, the third part of SERVICE (R90, R101). -/
  | tick
  /-- COUNT, one count of the timer, selected by `ev[0]` (R76). -/
  | count
  /-- FIRE, the part of COUNT taken when `tmr` = 0 (R77). -/
  | fire
  deriving DecidableEq, Repr

end Sys2Proof
end

