-- ==== Sys2Proof/WellFormed.lean ====
section
/-! DEFINITION. Which operations an encoding selects by itself (spec/30_encoding.md R56, column "Selected by").
Every operand value of REQ is legal (R59), so the only check is that the operation is not a part of another. -/
namespace Sys2Proof

/-- The operation that contains `i`, for the four operations that are "not separately selected"
(R79, R80, R90, R77; the table's `part_of`). -/
def Instr.partOf : Instr → Option Instr
  | .reload => some .service
  | .ack => some .service
  | .tick => some .service
  | .fire => some .count
  | .nop => none
  | .req _ => none
  | .start => none
  | .suspend => none
  | .resume => none
  | .illegal5 => none
  | .illegal6 => none
  | .illegal7 => none
  | .reset => none
  | .service => none
  | .count => none

/-- An operation is well-formed when an encoding of its own selects it: a host command, or RESET, SERVICE or COUNT.
The parts RELOAD, ACK, TICK and FIRE are not (R56). -/
def Instr.WellFormed (i : Instr) : Bool := i.partOf.isNone

/-- The host commands, format H (R56): what a command word can select. -/
def Instr.isCommand : Instr → Bool
  | .nop => true
  | .req _ => true
  | .start => true
  | .suspend => true
  | .resume => true
  | .illegal5 => true
  | .illegal6 => true
  | .illegal7 => true
  | .reset => false
  | .service => false
  | .reload => false
  | .ack => false
  | .tick => false
  | .count => false
  | .fire => false

end Sys2Proof
end

