-- ==== Sys2Proof/Decode.lean ====
section
/-! DEFINITION. The decoder and the encoder of the two formats: the command word, format H (spec/30_encoding.md R57 to
R61), and the event vector, format EV (R62). Neither has a length to find (R70). -/
namespace Sys2Proof

/-! ## Format H -/

/-- The opcode field `cmd[10:8]` (R57). -/
def opcodeOf (cmd : CommandWord) : BitVec 3 := cmd.extractLsb' 8 3

/-- The operand field `cmd[7:0]`, taken as it stands (R57, R59). -/
def operandOf (cmd : CommandWord) : Byte := cmd.extractLsb' 0 8

/-- The decoder of the command word: total, each word selects exactly one row (R58); the operand bits are looked at
by REQ alone (R61); the opcodes 5, 6 and 7 are reserved (R60). -/
def decodeCommand (cmd : CommandWord) : Instr :=
  match (opcodeOf cmd).toNat with
  | 0 => .nop
  | 1 => .req (operandOf cmd)
  | 2 => .start
  | 3 => .suspend
  | 4 => .resume
  | 5 => .illegal5
  | 6 => .illegal6
  | _ => .illegal7

/-- A command word from its two fields (R57). -/
def commandOf (op : BitVec 3) (byte : Byte) : CommandWord := op ++ byte

/-! ## Format EV -/

/-- An event vector selects a row when `ev & mask = match` (R62). -/
def evSelects (mask mtch ev : EventVector) : Bool := ev &&& mask == mtch

/-- `ev[2]` selects RESET and suppresses everything else (R62). -/
def evReset (ev : EventVector) : Bool := evSelects 0b100#3 0b100#3 ev

/-- `ev[1]` selects SERVICE (R62). -/
def evService (ev : EventVector) : Bool := evSelects 0b110#3 0b010#3 ev

/-- `ev[0]` selects COUNT (R62). -/
def evCount (ev : EventVector) : Bool := evSelects 0b101#3 0b001#3 ev

/-- The operations an event vector selects, in the order they happen in the cycle: the three bits are independent
conditions, not a one-of-eight code (R62). The host command stands between SERVICE and COUNT (R118). -/
def decodeEvent (ev : EventVector) : List Instr :=
  (if evReset ev then [.reset] else []) ++ (if evService ev then [.service] else [])
    ++ (if evCount ev then [.count] else [])

/-! ## Both formats -/

/-- A code word of either format (R56, column "format"). -/
inductive Code where
  /-- A word of format H. -/
  | command (cmd : CommandWord)
  /-- A word of format EV. -/
  | event (ev : EventVector)
  deriving DecidableEq, Repr

/-- Why a number is no code word of an operation. -/
inductive DecodeError where
  /-- Not a value of the 11-bit port `cmd` (R57). -/
  | notACommandWord
  /-- Not a value of the 3-bit event vector (R62). -/
  | notAnEventVector
  /-- The event vector 0b000, which selects no operation (R62). -/
  | noEvent
  deriving DecidableEq, Repr

/-- The operation a code word selects. An event vector that selects SERVICE and COUNT both answers the first of the
two (DESIGN CHOICE, log entry 11; `decodeEvent` gives them both). -/
def decode : Code → Except DecodeError Instr
  | .command cmd => .ok (decodeCommand cmd)
  | .event ev =>
    match decodeEvent ev with
    | i :: _ => .ok i
    | [] => .error .noEvent

/-- The code word of an operation, its ignored bits 0 (R58, R61, R62). A part of another operation has the word of
its whole, as in the opcode table (log entry 9). -/
def encode : Instr → Code
  | .nop => .command (commandOf 0b000#3 0#8)
  | .req byte => .command (commandOf 0b001#3 byte)
  | .start => .command (commandOf 0b010#3 0#8)
  | .suspend => .command (commandOf 0b011#3 0#8)
  | .resume => .command (commandOf 0b100#3 0#8)
  | .illegal5 => .command (commandOf 0b101#3 0#8)
  | .illegal6 => .command (commandOf 0b110#3 0#8)
  | .illegal7 => .command (commandOf 0b111#3 0#8)
  | .reset => .event 0b100#3
  | .service => .event 0b010#3
  | .reload => .event 0b010#3
  | .ack => .event 0b010#3
  | .tick => .event 0b010#3
  | .count => .event 0b001#3
  | .fire => .event 0b001#3

/-- The code word of `nbits` bits whose number is `w`. The two formats differ in length: an event vector fits one
byte, a command word two. -/
def codeOfTableWord (nbits w : Nat) : Except DecodeError Code :=
  if nbits ≤ 8 then
    if w < 8 then .ok (.event (BitVec.ofNat 3 w)) else .error .notAnEventVector
  else if w < 2048 then .ok (.command (BitVec.ofNat 11 w)) else .error .notACommandWord

/-- The decoder on a word of the opcode table, with the reason where it refuses. -/
def decodeNumber (nbits w : Nat) : Except DecodeError Instr :=
  match codeOfTableWord nbits w with
  | .ok c => decode c
  | .error e => .error e

/-- What the decoder reads from a word of the opcode table (none where it refuses). -/
def decodeTableWord (nbits w : Nat) : Option Instr :=
  match decodeNumber nbits w with
  | .ok i => some i
  | .error _ => none

end Sys2Proof
end

