-- ==== Sys2Proof/Config.lean ====
section
/-! DEFINITION. What is fixed for the machine (spec/00_scope.md R6) and the free values. The opaque constants have
no body: nothing can be proved of their values, so a claim holds for every value they could have. -/
namespace Sys2Proof.Config

/-- PREAMBLE, the synchronisation byte: all ones (R6, R14). -/
def preamble : Byte := 0xFF#8

/-- FRAME_BYTES: the preamble, then the payload (R6). -/
def frameBytes : Nat := 2

/-- BITS_PER_BYTE (R6). -/
def bitsPerByte : Nat := 8

/-- TICKS_PER_BIT: one bit cell spans two ticks (R6, R106). -/
def ticksPerBit : Nat := 2

/-- TICKS_PER_FRAME: two bytes of eight bits of two ticks (R6, R103, R106). -/
def ticksPerFrame : Nat := frameBytes * bitsPerByte * ticksPerBit

/-- TMR_WIDTH (R6, D8). -/
def tmrWidth : Nat := 16

/-- CMD_WIDTH (R6, D13). -/
def cmdWidth : Nat := 11

/-- DESIGN CHOICE, safe (log entry 1). INIT_PRELOAD, an OPEN parameter (R6, D10): the value `State.reset` gives the
field `initPreload`, left without a body because a model must not specialise it. -/
opaque initPreload : TimerWord

/-- DESIGN CHOICE, safe (log entry 1). HANDLER_RELOAD, an OPEN parameter (R6, D10), as `initPreload`. -/
opaque handlerReload : TimerWord

/-- DESIGN CHOICE, safe (log entry 2). `tick_period`, an OPEN parameter that no rule reads (R6, D24, R168); a number
of an unstated unit of time, read by nothing here either. -/
opaque tickPeriod : Nat

/-- DESIGN CHOICE, safe (log entry 3). The free value `payload_byte` holds after a reset (R13, D26, U2), by the
number of the draw: each reset may leave a different one (R150). -/
opaque resetPayload : Nat → Byte

/-- DESIGN CHOICE, safe (log entry 5). The free value of the input `rst` in a cycle for which `State.inputs` lists
nothing (R25), by the number of the draw. -/
opaque freeRst : Nat → Bool

/-- DESIGN CHOICE, safe (log entry 5). The free value of the input `cnt_en` in such a cycle (R20, U12). -/
opaque freeCntEn : Nat → Bool

/-- DESIGN CHOICE, safe (log entry 5). The free value of the input `cmd` in such a cycle (R57). -/
opaque freeCmd : Nat → CommandWord

end Sys2Proof.Config
end

