-- ==== Sys2Proof/Machine/State.lean ====
section
/-! DEFINITION. The state of MEPF as plain data: the eleven elements of spec/10_state.md R10, and beside them the
model's own fields, which carry what the spec calls inputs and parameters of the step (R26). MEPF has no addressable
memory (spec/20_memory.md R40), so there is no memory field. -/
namespace Sys2Proof.Machine

/-- A line level; the numbers are LOW = 0 and HIGH = 1 (R7, D5). -/
inductive Level where
  | low
  | high
  deriving DecidableEq, Repr

/-- `frame_phase`; the numbers are SENDING_PREAMBLE = 0 and SENDING_PAYLOAD = 1 (R15, D6). -/
inductive FramePhase where
  | sendingPreamble
  | sendingPayload
  deriving DecidableEq, Repr

/-- `half_phase`; the numbers are FIRST_HALF = 0 and SECOND_HALF = 1 (R18, D6). -/
inductive HalfPhase where
  | firstHalf
  | secondHalf
  deriving DecidableEq, Repr

/-- What the environment presents on the input ports in one cycle (R25, R26). -/
structure CycleInput where
  /-- The port `rst` (R150). -/
  rst : Bool
  /-- The port `cnt_en` (R20). -/
  cntEn : Bool
  /-- The port `cmd` (R57). -/
  cmd : CommandWord
  deriving DecidableEq, Repr

/-- The causes of the two sticky fault bits (R125): ordinary next states, they stop nothing (R126). -/
inductive FaultCause where
  /-- Code 1, `fault[0]`: a REQ while a transmission is active (R127). -/
  | busyRequest
  /-- Code 2, `fault[1]`: a reserved opcode (R128). -/
  | illegalCommand
  deriving DecidableEq, Repr

/-- The state: first the eleven elements of R10, "and nothing else"; then the model's own fields. -/
structure State where
  /-- `output_level`, the electrical state of the line (R11). -/
  outputLevel : Level
  /-- `tx_request`, a transmission is in progress or was just requested (R12). -/
  txRequest : Bool
  /-- `payload_byte` (R13). -/
  payloadByte : Byte
  /-- `frame_phase`, which byte is being encoded (R15). -/
  framePhase : FramePhase
  /-- `bit_index`, counting transmitted bits (R16). -/
  bitIndex : BitIndex
  /-- `half_phase`, the position in the bit's two-tick cell (R18). -/
  halfPhase : HalfPhase
  /-- `tmr`, the countdown register (R19). -/
  tmr : TimerWord
  /-- `tmr_on`, the Tick Source has been started (R21). -/
  tmrOn : Bool
  /-- `tick_pending`, the pending-interrupt indicator (R22). -/
  tickPending : Bool
  /-- `tick_ie`, delivery of the tick is enabled (R23). -/
  tickIe : Bool
  /-- `fault`, bit 0 BusyRequest, bit 1 IllegalCommand, sticky (R24). -/
  fault : FaultBits
  /-- The model's own: the inputs of the coming cycles, the next cycle's first (log entry 4). -/
  inputs : List CycleInput
  /-- The model's own: this machine's INIT_PRELOAD (R6; log entry 1). No operation writes it. -/
  initPreload : TimerWord
  /-- The model's own: this machine's HANDLER_RELOAD (R6; log entry 1). No operation writes it. -/
  handlerReload : TimerWord
  /-- The model's own: how many free values have been drawn (log entry 6). -/
  draws : Nat
  deriving DecidableEq, Repr

/-- The reasons a step could stop the machine: none. Every operation is total on every state (R90, R129, R143), and the
spec's two faults are sticky bits of the state (R126). It has no constructor, so nothing raises it (log entry 14). -/
inductive Fault where
  deriving DecidableEq, Repr

/-- The reasons a step could be refused. -/
inductive Refusal where
  /-- Raised by an arm of `exec` whose operation has no meaning yet; safe. No arm of this model raises it. -/
  | notModelled (mnemonic : String)
  deriving DecidableEq, Repr

/-- The machine right after reset (R30, R150). `payload_byte` is the free value of draw 0 (R13; log entry 3); nothing is
listed on the input ports (log entry 4); the parameters are the opaque constants of Config (log entry 1). -/
def State.reset : State where
  outputLevel := .low
  txRequest := false
  payloadByte := Config.resetPayload 0
  framePhase := .sendingPreamble
  bitIndex := 0#3
  halfPhase := .firstHalf
  tmr := 0x0000#16
  tmrOn := false
  tickPending := false
  tickIe := false
  fault := 0b00#2
  inputs := []
  initPreload := Config.initPreload
  handlerReload := Config.handlerReload
  draws := 1

end Sys2Proof.Machine
end

