-- ==== Sys2Proof/Machine/Operands.lean ====
section
/-! DEFINITION. How the elements of the state are read: the numbers of the enumerations, the sequence position, the
active byte and the data bit of a TICK (spec/41_encoder.md R92, R93), the line code (spec/30_encoding.md R63 to R65)
and the output ports (spec/10_state.md R25). -/
namespace Sys2Proof.Machine

/-! ## Levels and phases -/

/-- `not v` on a level (R8). -/
def Level.inv : Level → Level
  | .low => .high
  | .high => .low

/-- The level that carries a bit: LOW = 0, HIGH = 1 (R7, D5). -/
def Level.ofBit (b : Bool) : Level := if b then .high else .low

/-- The bit a level is (R7, D5). -/
def Level.bit : Level → Bool
  | .low => false
  | .high => true

/-- The number of a frame phase (D6). -/
def FramePhase.bits : FramePhase → BitVec 1
  | .sendingPreamble => 0#1
  | .sendingPayload => 1#1

/-- The number of a half phase (D6). -/
def HalfPhase.bits : HalfPhase → BitVec 1
  | .firstHalf => 0#1
  | .secondHalf => 1#1

/-! ## The place in the frame -/

/-- The 5-bit value `{frame_phase, bit_index, half_phase}` (R17). -/
def framePosition (phase : FramePhase) (index : BitIndex) (half : HalfPhase) : Pos :=
  phase.bits ++ index ++ half.bits

/-- `pos`, a reading of three elements and no register (R17). -/
def State.pos (s : State) : Pos := framePosition s.framePhase s.bitIndex s.halfPhase

/-- Step 2 of TICK: the active byte (R92). -/
def activeByte (s : State) : Byte :=
  match s.framePhase with
  | .sendingPreamble => Config.preamble
  | .sendingPayload => s.payloadByte

/-- Step 3 of TICK: bit `7 - index` of a byte, the most significant first (R93, R42). -/
def bitToSend (byte : Byte) (index : BitIndex) : Bool := byte.getLsbD (7 - index.toNat)

/-- The data bit `b` of the current cell (R93). -/
def dataBit (s : State) : Bool := bitToSend (activeByte s) s.bitIndex

/-! ## The line code -/

/-- The two half-cells of a data bit, the first one sent in bit 1: first `not b`, then `b` (R64). -/
def cellOf (b : Bool) : BitVec 2 := BitVec.ofBool (!b) ++ BitVec.ofBool b

/-- `M(B)`, the sixteen half-cells of a byte, the cell of bit 7 first (R65). -/
def manchester (byte : Byte) : HalfCells :=
  cellOf (byte.getLsbD 7) ++ cellOf (byte.getLsbD 6) ++ cellOf (byte.getLsbD 5) ++ cellOf (byte.getLsbD 4)
    ++ cellOf (byte.getLsbD 3) ++ cellOf (byte.getLsbD 2) ++ cellOf (byte.getLsbD 1) ++ cellOf (byte.getLsbD 0)

/-- The frame of a payload, `{M(PREAMBLE), M(P)}`, half-cell 0 in bit 31 (R63, R65). -/
def frameCells (payload : Byte) : FrameCells := manchester Config.preamble ++ manchester payload

/-- Half-cell `p` of the frame of a payload, as a level (R63). -/
def halfCell (payload : Byte) (p : Nat) : Level := Level.ofBit ((frameCells payload).getLsbD (31 - p))

/-! ## The summary states of R102 -/

/-- DOC00's three-state summary (R26, R102). -/
inductive Summary where
  | idle
  | preamble
  | payload
  deriving DecidableEq, Repr

/-- Which of the three a state is: IDLE when no request, else by the frame phase (R102). -/
def State.summary (s : State) : Summary :=
  if s.txRequest then
    match s.framePhase with
    | .sendingPreamble => .preamble
    | .sendingPayload => .payload
  else .idle

/-! ## The output ports -/

/-- What the four output ports show: the registers themselves, no logic between (R25, D22). Reading them is no
operation, so it changes nothing (R47). -/
structure Outputs where
  txOut : Level
  busy : Bool
  tickFlag : Bool
  fault : FaultBits
  deriving DecidableEq, Repr

/-- The output ports in a state (R25). -/
def State.outputs (s : State) : Outputs where
  txOut := s.outputLevel
  busy := s.txRequest
  tickFlag := s.tickPending
  fault := s.fault

end Sys2Proof.Machine
end

