-- ==== Sys2Proof/Machine/Flags.lean ====
section
/-! DEFINITION. The sticky fault bits (spec/60_exceptions.md R125, R126). MEPF has no condition codes and no arithmetic
flags (spec/10_state.md R27). -/
namespace Sys2Proof.Machine

/-- The cause code of a fault: a name for documents, no register holds it (R125, R126). -/
def FaultCause.code : FaultCause → Nat
  | .busyRequest => 1
  | .illegalCommand => 2

/-- The bit of `fault` a cause sets (R125). -/
def FaultCause.mask : FaultCause → FaultBits
  | .busyRequest => 0b01#2
  | .illegalCommand => 0b10#2

/-- The fault register with the bit of a cause set, the other bit kept: sticky (R24, R126). -/
def setFaultBit (cause : FaultCause) (fault : FaultBits) : FaultBits := fault ||| cause.mask

/-- Whether the bit of a cause is set. -/
def faultBit (cause : FaultCause) (fault : FaultBits) : Bool := fault &&& cause.mask != 0#2

end Sys2Proof.Machine
end

