-- ==== Sys2Proof/Machine/Ops.lean ====
section
/-! DEFINITION. The named operations on the state that the meanings share: raising a fault (spec/60_exceptions.md R126),
writing the timer and its bits, accepting a request, and taking the inputs of a cycle from the ports. -/
namespace Sys2Proof.Machine

/-! ## Exceptions

`raise` is the machine's one way to take an exception. It transfers no control, saves nothing and changes no mode
(R126); so there is no return from it. The tick interrupt is the operation SERVICE, which ends within its cycle and
restores nothing either (R133, R135). -/

/-- `raise F`: set the sticky bit of `F`; every other write of the command is suppressed (R126, R8). -/
def raise (cause : FaultCause) (s : State) : State := { s with fault := setFaultBit cause s.fault }

/-! ## The Tick Source -/

/-- Write `tmr`, whole (R43, R45). -/
def loadTimer (v : TimerWord) (s : State) : State := { s with tmr := v }

/-- `tick_pending <- 1` (R77). -/
def setPending (s : State) : State := { s with tickPending := true }

/-- `tick_pending <- 0` (R80). -/
def clearPending (s : State) : State := { s with tickPending := false }

/-- `tick_ie <- v` (R115, R116). -/
def setDelivery (v : Bool) (s : State) : State := { s with tickIe := v }

/-- `tmr_on <- 1` (R114). -/
def startTimer (s : State) : State := { s with tmrOn := true }

/-! ## The request -/

/-- The five writes of an accepted request, all at one clock edge (R112, R46). -/
def acceptRequest (byte : Byte) (s : State) : State :=
  { s with
    payloadByte := byte
    framePhase := .sendingPreamble
    bitIndex := 0#3
    halfPhase := .firstHalf
    txRequest := true }

/-! ## The input ports -/

/-- The inputs of the coming cycle: the first ones listed, or free values where none is listed (R25; log entries 4
and 5). -/
def nextInput (s : State) : CycleInput :=
  match s.inputs with
  | inp :: _ => inp
  | [] => { rst := Config.freeRst s.draws, cntEn := Config.freeCntEn s.draws, cmd := Config.freeCmd s.draws }

/-- The state once the inputs of the cycle have been sampled: the list is one shorter, or one draw has been made. No
element of the machine changes. -/
def sampleInput (s : State) : State :=
  match s.inputs with
  | _ :: rest => { s with inputs := rest }
  | [] => { s with draws := s.draws + 1 }

/-- Present an input in the next cycle, before those already listed. -/
def presentInput (inp : CycleInput) (s : State) : State := { s with inputs := inp :: s.inputs }

end Sys2Proof.Machine
end

