-- ==== Sys2Proof/Machine/HostCommands.lean ====
section
/-! DEFINITION. The host commands NOP, REQ, START, SUSPEND, RESUME and the reserved opcodes
(spec/42_host_commands.md R111 to R117). A rejected command is an ordinary next state with its fault bit set. -/
namespace Sys2Proof.Machine

/-- NOP: no write (R111). -/
def execNop (s : State) : Host.Outcome State Fault Refusal := .next s

/-- REQ: accepted while idle (R112), rejected and reported while a transmission is active (R113, D15). -/
def execReq (byte : Byte) (s : State) : Host.Outcome State Fault Refusal :=
  .next (if s.txRequest then raise .busyRequest s else acceptRequest byte s)

/-- START: load the timer with INIT_PRELOAD and let it run; allowed while it runs (R114, R161). -/
def execStart (s : State) : Host.Outcome State Fault Refusal := .next (startTimer (loadTimer s.initPreload s))

/-- SUSPEND: delivery off (R115). -/
def execSuspend (s : State) : Host.Outcome State Fault Refusal := .next (setDelivery false s)

/-- RESUME: delivery on (R116). -/
def execResume (s : State) : Host.Outcome State Fault Refusal := .next (setDelivery true s)

/-- ILLEGAL, the reserved opcode 5: IllegalCommand and no other write (R117). -/
def execIllegal5 (s : State) : Host.Outcome State Fault Refusal := .next (raise .illegalCommand s)

/-- ILLEGAL, the reserved opcode 6 (R117). -/
def execIllegal6 (s : State) : Host.Outcome State Fault Refusal := .next (raise .illegalCommand s)

/-- ILLEGAL, the reserved opcode 7 (R117). -/
def execIllegal7 (s : State) : Host.Outcome State Fault Refusal := .next (raise .illegalCommand s)

end Sys2Proof.Machine
end

