-- ==== Sys2Proof/Machine/ResetOp.lean ====
section
/-! DEFINITION. The operation RESET (spec/70_reset_and_hazards.md R150). -/
namespace Sys2Proof.Machine

/-- Every element takes its reset value (R30, R150). `payload_byte` takes a fresh free value: "each may leave a
different `payload_byte`" (R150; log entry 3). The model's own fields are kept, but for the draw (log entry 13). -/
def resetState (s : State) : State :=
  { s with
    outputLevel := .low
    txRequest := false
    payloadByte := Config.resetPayload s.draws
    framePhase := .sendingPreamble
    bitIndex := 0#3
    halfPhase := .firstHalf
    tmr := 0x0000#16
    tmrOn := false
    tickPending := false
    tickIe := false
    fault := 0b00#2
    draws := s.draws + 1 }

/-- RESET (R150). -/
def execReset (s : State) : Host.Outcome State Fault Refusal := .next (resetState s)

end Sys2Proof.Machine
end

