-- ==== Sys2Proof/Machine/Encoder.lean ====
section
/-! DEFINITION. The Encoder State Machine: the operation TICK, `on_tick()` (spec/41_encoder.md R90 to R101), in the
spec's five steps. It is total on every state and raises nothing (R90, U11). -/
namespace Sys2Proof.Machine

/-- Step 1, idle: force the line LOW, whatever the framing fields hold (R91). -/
def tickIdle (s : State) : State := { s with outputLevel := .low }

/-- Step 4, first half of the cell: drive `not b` (R94). -/
def tickFirstHalf (s : State) : State :=
  { s with outputLevel := (Level.ofBit (dataBit s)).inv, halfPhase := .secondHalf }

/-- Step 5, the bit index: incremented, 8 never stored (R97, R16). -/
def nextBitIndex (index : BitIndex) : BitIndex := index + 1#3

/-- Step 5, whether the byte is complete: the old index is 7, the incremented value "reaches 8" (R97). -/
def byteComplete (index : BitIndex) : Bool := index == 7#3

/-- Step 5, the frame phase at the end of a byte: the preamble is followed by the payload (R98), the payload by
nothing, the phase is held (R99). -/
def phaseAfterByte : FramePhase → FramePhase
  | .sendingPreamble => .sendingPayload
  | .sendingPayload => .sendingPayload

/-- Step 5, the request at the end of a byte: it stands after the preamble (R98), is done after the payload (R99). -/
def requestAfterByte : FramePhase → Bool
  | .sendingPreamble => true
  | .sendingPayload => false

/-- Step 5, the framing advance at the end of a byte (R98, R99). -/
def endByte (s : State) : State :=
  { s with framePhase := phaseAfterByte s.framePhase, txRequest := requestAfterByte s.framePhase }

/-- Step 5, second half of the cell: invert the line, advance the bit index, and end the byte when it is complete
(R96 to R99). All are values at the start of the TICK (R101). -/
def tickSecondHalf (s : State) : State :=
  let t := { s with
    outputLevel := s.outputLevel.inv
    halfPhase := .firstHalf
    bitIndex := nextBitIndex s.bitIndex }
  if byteComplete s.bitIndex then endByte t else t

/-- TICK assembled (R101). -/
def onTick (s : State) : State :=
  if s.txRequest then
    match s.halfPhase with
    | .firstHalf => tickFirstHalf s
    | .secondHalf => tickSecondHalf s
  else tickIdle s

/-- TICK (R90, R101). -/
def execTick (s : State) : Host.Outcome State Fault Refusal := .next (onTick s)

end Sys2Proof.Machine
end

