-- ==== Sys2Proof/Machine/TickSource.lean ====
section
/-! DEFINITION. The Tick Source and its handler: COUNT, FIRE, RELOAD, ACK, SERVICE (spec/40_tick_source.md R75 to R84).
Each meaning is the operation itself; the conditions under which a cycle selects it are in Machine/Cycle.lean
(spec/30_encoding.md R62; log entry 8). -/
namespace Sys2Proof.Machine

/-- FIRE: the tick becomes pending, one bit, a second one is lost; the timer wraps and runs on (R77, R160). -/
def fireTimer (s : State) : State := loadTimer 0xFFFF#16 (setPending s)

/-- COUNT: the count that finds 0 fires, any other decrements (R76). -/
def countTimer (s : State) : State :=
  if s.tmr = 0#16 then fireTimer s else loadTimer (s.tmr - 1#16) s

/-- RELOAD: the handler reprograms the countdown register (R79). -/
def reloadTimer (s : State) : State := loadTimer s.handlerReload s

/-- SERVICE, the handler: RELOAD; ACK; TICK (R81). -/
def serviceTick (s : State) : State := onTick (clearPending (reloadTimer s))

/-- COUNT (R76). -/
def execCount (s : State) : Host.Outcome State Fault Refusal := .next (countTimer s)

/-- FIRE (R77). -/
def execFire (s : State) : Host.Outcome State Fault Refusal := .next (fireTimer s)

/-- RELOAD (R79). -/
def execReload (s : State) : Host.Outcome State Fault Refusal := .next (reloadTimer s)

/-- ACK (R80). -/
def execAck (s : State) : Host.Outcome State Fault Refusal := .next (clearPending s)

/-- SERVICE (R81). -/
def execService (s : State) : Host.Outcome State Fault Refusal := .next (serviceTick s)

end Sys2Proof.Machine
end

