-- ==== Sys2Proof/Machine/Dispatch.lean ====
section
/-! DEFINITION. One arm per operation: which meaning it has (spec/30_encoding.md R56). -/
namespace Sys2Proof.Machine
open Sys2Proof

def exec (i : Instr) (s : State) : Host.Outcome State Fault Refusal :=
  match i with
  -- format H: the host commands
  | .nop => Sys2Proof.Machine.execNop s
  | .req byte => Sys2Proof.Machine.execReq byte s
  | .start => Sys2Proof.Machine.execStart s
  | .suspend => Sys2Proof.Machine.execSuspend s
  | .resume => Sys2Proof.Machine.execResume s
  | .illegal5 => Sys2Proof.Machine.execIllegal5 s
  | .illegal6 => Sys2Proof.Machine.execIllegal6 s
  | .illegal7 => Sys2Proof.Machine.execIllegal7 s
  -- format EV: the internal operations
  | .reset => Sys2Proof.Machine.execReset s
  | .service => Sys2Proof.Machine.execService s
  | .reload => Sys2Proof.Machine.execReload s
  | .ack => Sys2Proof.Machine.execAck s
  | .tick => Sys2Proof.Machine.execTick s
  | .count => Sys2Proof.Machine.execCount s
  | .fire => Sys2Proof.Machine.execFire s

end Sys2Proof.Machine
end

