-- ==== Sys2Proof/Machine/Cycle.lean ====
section
/-! DEFINITION. One clock cycle composed of operations (spec/42_host_commands.md R118), the event vector that selects
them (spec/30_encoding.md R62), and the untimed view (R119). Step.lean only calls `cycle`. -/
namespace Sys2Proof.Machine
open Sys2Proof

/-! ## Selection -/

/-- The condition of SERVICE, taken from the state at the start of the cycle (R118, R131). -/
def serviceDue (s : State) : Bool := s.tickPending && s.tickIe

/-- The condition of COUNT, `tmr_on` taken from the state after the host command (R118). -/
def countDue (inp : CycleInput) (s : State) : Bool := s.tmrOn && inp.cntEn

/-- The event vector: `rst`; `svc` from `s0`, the state at the start of the cycle; `cnt` from `s2`, the state after
SERVICE and the host command (R62). -/
def eventVector (inp : CycleInput) (s0 s2 : State) : EventVector :=
  BitVec.ofBool inp.rst ++ BitVec.ofBool (!inp.rst && serviceDue s0) ++ BitVec.ofBool (!inp.rst && countDue inp s2)

/-! ## Composition -/

/-- `;`: the second operation sees the writes of the first (R8). -/
def andThen (o : Host.Outcome State Fault Refusal) (f : State → Host.Outcome State Fault Refusal) :
    Host.Outcome State Fault Refusal :=
  match o with
  | .next s => f s
  | .fault r => .fault r
  | .refused r => .refused r

/-- An operation of the cycle that happens only when selected; else the state holds (R32). -/
def execWhen (due : Bool) (i : Instr) (s : State) : Host.Outcome State Fault Refusal :=
  if due then exec i s else .next s

/-- `Step(S0, rst, cnt_en, cmd)`: RESET alone when `rst`; else SERVICE if due, the host command, COUNT if due, each
seeing the writes of the one before (R118, R151). -/
def cycleWith (inp : CycleInput) (s0 : State) : Host.Outcome State Fault Refusal :=
  if inp.rst then exec .reset s0
  else
    andThen (execWhen (serviceDue s0) .service s0) fun s1 =>
    andThen (exec (decodeCommand inp.cmd) s1) fun s2 =>
    execWhen (countDue inp s2) .count s2

/-- One clock cycle: sample the inputs, then `Step` (R118). -/
def cycle (s : State) : Host.Outcome State Fault Refusal := cycleWith (nextInput s) (sampleInput s)

/-! ## The untimed view -/

/-- Operations one after the other, each atomic (R46, R50, R119). -/
def runOps : List Instr → State → Host.Outcome State Fault Refusal
  | [], s => .next s
  | i :: rest, s => andThen (exec i s) (runOps rest)

/-- When the untimed view lets an operation happen: COUNT while the timer is on, SERVICE while it is due, a host
command and RESET always, a part never by itself (R119, R56). -/
def opEnabled (i : Instr) (s : State) : Bool :=
  match i with
  | .count => s.tmrOn
  | .service => serviceDue s
  | .nop => true
  | .req _ => true
  | .start => true
  | .suspend => true
  | .resume => true
  | .illegal5 => true
  | .illegal6 => true
  | .illegal7 => true
  | .reset => true
  | .reload => false
  | .ack => false
  | .tick => false
  | .fire => false

/-- Every operation of the list is enabled in the state it finds (R119). -/
def opsEnabled : List Instr → State → Bool
  | [], _ => true
  | i :: rest, s =>
    opEnabled i s &&
      match exec i s with
      | .next t => opsEnabled rest t
      | .fault _ => false
      | .refused _ => false

/-- The operations of a cycle in their order, from its event vector and its command: the host command stands after
SERVICE and before COUNT, and is suppressed by RESET (R62, R118). -/
def cycleOps (ev : EventVector) (cmd : CommandWord) : List Instr :=
  if evReset ev then [.reset]
  else (if evService ev then [.service] else []) ++ [decodeCommand cmd] ++ (if evCount ev then [.count] else [])

/-! ## Placing an operation where the next cycle selects it -/

/-- The state in which the coming cycle runs exactly the code word `c`: a command word is presented on the ports with
`cnt_en` = 0; for an event vector the inputs and the conditions it is read from are set (R62; log entry 12). -/
def placeCode (c : Code) (s : State) : State :=
  match c with
  | .command cmd => presentInput { rst := false, cntEn := false, cmd := cmd } s
  | .event ev =>
    let due := ev.getLsbD 1
    presentInput { rst := ev.getLsbD 2, cntEn := ev.getLsbD 0, cmd := 0x000#11 }
      { s with
        tickPending := due
        tickIe := due || s.tickIe
        tmrOn := ev.getLsbD 0 || s.tmrOn }

/-- `placeCode` for a word of the opcode table; a number that is no code word changes nothing. -/
def placeTableWord (nbits w : Nat) (s : State) : State :=
  match codeOfTableWord nbits w with
  | .ok c => placeCode c s
  | .error _ => s

end Sys2Proof.Machine
end

