-- ==== Sys2Proof/Machine/Step.lean ====
section
/-! DEFINITION. One step of the machine is one clock cycle (spec/42_host_commands.md R118, D2; log entry 7). -/
namespace Sys2Proof.Machine
open Sys2Proof

/-- One step: one rising edge of `clk` (R118). -/
def step (s : State) : Host.Outcome State Fault Refusal := cycle s

/-- The state in which the next step runs the operation of a word of the opcode table (log entry 12). -/
def State.withFetchWord (s : State) (nbits w : Nat) : State := placeTableWord nbits w s

end Sys2Proof.Machine
end

