-- ==== Sys2Proof/Machine/Stream.lean ====
section
/-! DEFINITION. The command-stream notation of the test programs (spec/30_encoding.md R68, R69, D25): its lines, its
pseudo-instructions, its spelling, and the host that plays a stream to the machine. A stream is what the host does, no
part of the machine. -/
namespace Sys2Proof.Machine
open Sys2Proof

/-! ## Lines -/

/-- What a line of a command stream says (R68), the pseudo-instructions of R69 among them. -/
inductive Line where
  | nop
  | req (byte : Byte)
  | start
  | suspend
  | resume
  /-- The line `RESET`: `rst` = 1 (R68). -/
  | reset
  /-- `.word w`: a word with no mnemonic (R68). -/
  | word (w : CommandWord)
  /-- `WAIT n`: NOP, n times (R69). -/
  | wait (n : Nat)
  /-- `INIT`: START then RESUME (R69). -/
  | init
  /-- `SEND b`: REQ b (R69). -/
  | send (byte : Byte)
  /-- `WAITIDLE`: NOP while `busy` = 1 (R69). -/
  | waitIdle
  /-- The opening of `ATOMIC`: SUSPEND (R69). -/
  | atomicOpen
  /-- The closing of `ATOMIC`: RESUME (R69). -/
  | atomicClose
  deriving DecidableEq, Repr

/-- A line with its `!hold` mark, which sets `cnt_en` = 0 in its cycles (R68). -/
structure StreamLine where
  line : Line
  hold : Bool
  deriving DecidableEq, Repr

/-- What the host does: one cycle's inputs, or the loop of WAITIDLE, "not a fixed expansion" (R69). -/
inductive StreamItem where
  | cycle (inp : CycleInput)
  | waitIdle (hold : Bool)
  deriving DecidableEq, Repr

/-- A cycle with `rst` = 0 that presents a command word (R68). -/
def wordCycle (hold : Bool) (w : CommandWord) : CycleInput := { rst := false, cntEn := !hold, cmd := w }

/-- The canonical command words (R61). -/
def nopWord : CommandWord := 0x000#11

/-- The word of REQ, `0x100 | byte` (R112). -/
def reqWord (byte : Byte) : CommandWord := commandOf 0b001#3 byte

/-- What a line assembles to (R68, R69). A `!hold` on a pseudo-instruction stands on each of its cycles (DESIGN CHOICE,
log entry 15; R69 says so of WAIT). -/
def assembleLine (l : StreamLine) : List StreamItem :=
  let put (w : CommandWord) : StreamItem := .cycle (wordCycle l.hold w)
  match l.line with
  | .nop => [put nopWord]
  | .req byte => [put (reqWord byte)]
  | .start => [put 0x200#11]
  | .suspend => [put 0x300#11]
  | .resume => [put 0x400#11]
  | .reset => [.cycle { rst := true, cntEn := !l.hold, cmd := nopWord }]
  | .word w => [put w]
  | .wait n => List.replicate n (put nopWord)
  | .init => [put 0x200#11, put 0x400#11]
  | .send byte => [put (reqWord byte)]
  | .waitIdle => [.waitIdle l.hold]
  | .atomicOpen => [put 0x300#11]
  | .atomicClose => [put 0x400#11]

/-- A command stream assembled, line by line (R68). -/
def assemble : List StreamLine → List StreamItem
  | [] => []
  | l :: rest => assembleLine l ++ assemble rest

/-- Every `ATOMIC` is closed and nothing else is (R69); the number is how many stand open. -/
def atomicBalanced : Nat → List StreamLine → Bool
  | open', [] => open' == 0
  | open', l :: rest =>
    match l.line with
    | .atomicOpen => atomicBalanced (open' + 1) rest
    | .atomicClose => open' != 0 && atomicBalanced (open' - 1) rest
    | .nop => atomicBalanced open' rest
    | .req _ => atomicBalanced open' rest
    | .start => atomicBalanced open' rest
    | .suspend => atomicBalanced open' rest
    | .resume => atomicBalanced open' rest
    | .reset => atomicBalanced open' rest
    | .word _ => atomicBalanced open' rest
    | .wait _ => atomicBalanced open' rest
    | .init => atomicBalanced open' rest
    | .send _ => atomicBalanced open' rest
    | .waitIdle => atomicBalanced open' rest

/-! ## Playing a stream -/

/-- The host plays a stream: it presents each cycle's inputs, and in WAITIDLE it presents NOP as long as it samples
`busy` = 1. `fuel` bounds the number of items and repetitions played. -/
def playStream : Nat → List StreamItem → State → Host.Outcome State Fault Refusal
  | 0, _, s => .next s
  | _ + 1, [], s => .next s
  | fuel + 1, .cycle inp :: rest, s => andThen (step (presentInput inp s)) (playStream fuel rest)
  | fuel + 1, .waitIdle hold :: rest, s =>
    if s.outputs.busy then
      andThen (step (presentInput (wordCycle hold nopWord) s)) (playStream fuel (.waitIdle hold :: rest))
    else playStream fuel rest s

/-! ## Spelling (R68)

Text is a list of characters. A line ends at a new-line character, a comment runs from `;` to the end of its line, words
are separated by blanks. -/

/-- The characters between separators. -/
def splitText (sep : Char → Bool) : List Char → List (List Char)
  | [] => [[]]
  | c :: rest =>
    if sep c then [] :: splitText sep rest
    else
      match splitText sep rest with
      | w :: ws => (c :: w) :: ws
      | [] => [[c]]

/-- The words of a line, its comment left out. -/
def wordsOf (line : List Char) : List (List Char) :=
  (splitText (fun c => c == ' ' || c == '\t' || c == '\r') (line.takeWhile (· != ';'))).filter (! ·.isEmpty)

/-- The value of a digit in a base up to sixteen. -/
def digitValue (base : Nat) (c : Char) : Option Nat :=
  let v :=
    if '0'.toNat ≤ c.toNat ∧ c.toNat ≤ '9'.toNat then some (c.toNat - '0'.toNat)
    else if 'a'.toNat ≤ c.toNat ∧ c.toNat ≤ 'f'.toNat then some (c.toNat - 'a'.toNat + 10)
    else if 'A'.toNat ≤ c.toNat ∧ c.toNat ≤ 'F'.toNat then some (c.toNat - 'A'.toNat + 10)
    else none
  v.bind fun n => if n < base then some n else none

/-- The value of digits after `acc`. -/
def digitsValue (base : Nat) : Nat → List Char → Option Nat
  | acc, [] => some acc
  | acc, c :: rest =>
    match digitValue base c with
    | some d => digitsValue base (acc * base + d) rest
    | none => none

/-- A number in decimal, `0x` hexadecimal or `0b` binary (R68). -/
def numberOf : List Char → Option Nat
  | '0' :: 'x' :: c :: rest => digitsValue 16 0 (c :: rest)
  | '0' :: 'b' :: c :: rest => digitsValue 2 0 (c :: rest)
  | c :: rest => digitsValue 10 0 (c :: rest)
  | [] => none

/-- A number below a bound. -/
def numberBelow (bound : Nat) (w : List Char) : Option Nat :=
  (numberOf w).bind fun n => if n < bound then some n else none

/-- The opening brace of `ATOMIC`. -/
def openBrace : Char := Char.ofNat 123

/-- The closing brace of `ATOMIC`. -/
def closeBrace : Char := Char.ofNat 125

/-- The line that words say, without a `!hold`. -/
def lineOfWords : List (List Char) → Option Line
  | [['N', 'O', 'P']] => some .nop
  | [['R', 'E', 'Q'], n] => (numberBelow 256 n).map fun b => .req (BitVec.ofNat 8 b)
  | [['S', 'T', 'A', 'R', 'T']] => some .start
  | [['S', 'U', 'S', 'P', 'E', 'N', 'D']] => some .suspend
  | [['R', 'E', 'S', 'U', 'M', 'E']] => some .resume
  | [['R', 'E', 'S', 'E', 'T']] => some .reset
  | [['.', 'w', 'o', 'r', 'd'], n] => (numberBelow 2048 n).map fun w => .word (BitVec.ofNat 11 w)
  | [['W', 'A', 'I', 'T'], n] => (numberOf n).map .wait
  | [['I', 'N', 'I', 'T']] => some .init
  | [['S', 'E', 'N', 'D'], n] => (numberBelow 256 n).map fun b => .send (BitVec.ofNat 8 b)
  | [['W', 'A', 'I', 'T', 'I', 'D', 'L', 'E']] => some .waitIdle
  | [['A', 'T', 'O', 'M', 'I', 'C'], [c]] => if c = openBrace then some .atomicOpen else none
  | [[c]] => if c = closeBrace then some .atomicClose else none
  | _ => none

/-- The mark `!hold`. -/
def holdMark : List Char := ['!', 'h', 'o', 'l', 'd']

/-- One line of text: nothing where it is blank, none where it is not of the notation. -/
def parseLine (text : List Char) : Option (List StreamLine) :=
  match (wordsOf text).reverse with
  | [] => some []
  | last :: before =>
    if last = holdMark then (lineOfWords before.reverse).map fun l => [{ line := l, hold := true }]
    else (lineOfWords (last :: before).reverse).map fun l => [{ line := l, hold := false }]

/-- The lines of a text, none where one of them is not of the notation. -/
def parseLines : List (List Char) → Option (List StreamLine)
  | [] => some []
  | l :: rest =>
    match parseLine l, parseLines rest with
    | some a, some b => some (a ++ b)
    | some _, none => none
    | none, _ => none

/-- A command stream in text, none where a line is not of the notation or an `ATOMIC` is not closed (R68, R69). -/
def parseStream (text : List Char) : Option (List StreamLine) :=
  match parseLines (splitText (· == '\n') text) with
  | some ls => if atomicBalanced 0 ls then some ls else none
  | none => none

end Sys2Proof.Machine
end

