-- ==== Sys2Proof/Safety.lean ====
section
/-! DEFINITION. The terms claims are stated in: runs of cycles, the inputs and the ticks of a run, and the invariant
that holds from reset on (spec/10_state.md R28, R29; spec/30_encoding.md R63, R67). MEPF has no unsafe state: every step
has a next state. -/
namespace Sys2Proof.Machine
open Sys2Proof

/-! ## Runs -/

/-- `n` clock cycles. -/
def runCycles : Nat → State → Host.Outcome State Fault Refusal
  | 0, s => .next s
  | n + 1, s => andThen (step s) (runCycles n)

/-- The inputs sampled in the coming `n` cycles. -/
def inputsDuring : Nat → State → List CycleInput
  | 0, _ => []
  | n + 1, s =>
    nextInput s ::
      match step s with
      | .next t => inputsDuring n t
      | .fault _ => []
      | .refused _ => []

/-- The coming cycle contains a SERVICE, hence one TICK (R62, R81). -/
def tickHappens (s : State) : Bool := !(nextInput s).rst && serviceDue s

/-- How many TICKs the coming `n` cycles contain. -/
def ticksDuring : Nat → State → Nat
  | 0, _ => 0
  | n + 1, s =>
    (if tickHappens s then 1 else 0) +
      match step s with
      | .next t => ticksDuring n t
      | .fault _ => 0
      | .refused _ => 0

/-- An operation that contains a TICK (R81, R90). -/
def isTick (i : Instr) : Bool := i = .tick || i = .service

/-- A reserved opcode (R60). -/
def isIllegal (i : Instr) : Bool := i = .illegal5 || i = .illegal6 || i = .illegal7

/-- A request, whatever its byte. -/
def isReq : Instr → Bool
  | .req _ => true
  | .nop => false
  | .start => false
  | .suspend => false
  | .resume => false
  | .illegal5 => false
  | .illegal6 => false
  | .illegal7 => false
  | .reset => false
  | .service => false
  | .reload => false
  | .ack => false
  | .tick => false
  | .count => false
  | .fire => false

/-- Every input of a run leaves the machine out of reset. -/
def NoReset (inps : List CycleInput) : Prop := ∀ inp ∈ inps, inp.rst = false

/-- No cycle of a run presents the command `i`. -/
def NeverCommands (i : Instr) (inps : List CycleInput) : Prop := ∀ inp ∈ inps, decodeCommand inp.cmd ≠ i

/-- Every cycle of a run enables the timer's count. -/
def AlwaysCounts (inps : List CycleInput) : Prop := ∀ inp ∈ inps, inp.cntEn = true

/-! ## The invariant -/

/-- While idle the place in the frame is 0 or 16 (R29), and the line is LOW or still holds the last half-cell of the
frame just sent (R67); before the first frame it is LOW (R11). -/
def IdleInv (s : State) : Prop :=
  s.bitIndex = 0#3 ∧ s.halfPhase = .firstHalf ∧
    (s.framePhase = .sendingPreamble → s.outputLevel = .low) ∧
    (s.outputLevel = .low ∨ s.outputLevel = Level.ofBit (s.payloadByte.getLsbD 0))

/-- While active the line holds the half-cell before the place in the frame, unless no half-cell of the frame has been
sent (R63, R105). -/
def ActiveInv (s : State) : Prop :=
  s.pos = 0#5 ∨ s.outputLevel = halfCell s.payloadByte (s.pos.toNat - 1)

/-- The invariant of every state reached from reset: the encoder's place and line agree (R29, R63, R67), and no tick is
pending before the timer has been started (R154). -/
def State.Inv (s : State) : Prop :=
  (s.txRequest = false → IdleInv s) ∧ (s.txRequest = true → ActiveInv s) ∧
    (s.tmrOn = false → s.tickPending = false)

end Sys2Proof.Machine
end

