-- ==== Sys2Proof/Certificates/Slice0/Obligations.lean ====
section
/-! DEFINITION. The statements for the provers. Each docstring names the rule of spec/ it formalises, or says that the
statement rests on the spec's own inference or on a choice of the model. Where a statement speaks of the next state as
`{ s with … }`, every element it does not name is unchanged: that is the operation's frame. The model's fields for
INIT_PRELOAD and HANDLER_RELOAD (log entry 1) stand for the spec's parameters and are never fixed. -/
open Sys2Proof Sys2Proof.Machine

/-! ## Encodings -/

/-- R58 and R59: the eight rows partition the command words by the mask 0x700, and each row's words decode to its
operation, REQ with `cmd[7:0]` taken as it stands. -/
def Obligations.CommandWordSelectsOneRow : Prop :=
  ∀ cmd : CommandWord,
    cmd &&& 0x700#11 ∈ [0x000#11, 0x100#11, 0x200#11, 0x300#11, 0x400#11, 0x500#11, 0x600#11, 0x700#11] ∧
    (cmd &&& 0x700#11 = 0x000#11 → decodeCommand cmd = .nop) ∧
    (cmd &&& 0x700#11 = 0x100#11 →
      ∃ byte : Byte, decodeCommand cmd = .req byte ∧ ∀ k, k < 8 → byte.getLsbD k = cmd.getLsbD k) ∧
    (cmd &&& 0x700#11 = 0x200#11 → decodeCommand cmd = .start) ∧
    (cmd &&& 0x700#11 = 0x300#11 → decodeCommand cmd = .suspend) ∧
    (cmd &&& 0x700#11 = 0x400#11 → decodeCommand cmd = .resume) ∧
    (cmd &&& 0x700#11 = 0x500#11 → decodeCommand cmd = .illegal5) ∧
    (cmd &&& 0x700#11 = 0x600#11 → decodeCommand cmd = .illegal6) ∧
    (cmd &&& 0x700#11 = 0x700#11 → decodeCommand cmd = .illegal7)

/-- R61: two words that differ in `cmd[7:0]` only decode alike unless the opcode is REQ's; and the canonical words. -/
def Obligations.OperandBitsIgnoredButByReq : Prop :=
  (∀ cmd cmd' : CommandWord, cmd &&& 0x700#11 = cmd' &&& 0x700#11 → cmd &&& 0x700#11 ≠ 0x100#11 →
    decodeCommand cmd = decodeCommand cmd') ∧
  encode .nop = .command 0x000#11 ∧ encode .start = .command 0x200#11 ∧
  encode .suspend = .command 0x300#11 ∧ encode .resume = .command 0x400#11

/-- Decode and encode agree, both ways: an operation that an encoding selects by itself is read back from its code word
with its operand (R56, R58, R62), and encoding what a command word decodes to gives that word, its ignored bits
cleared (R61). -/
def Obligations.DecodeOfEncode : Prop :=
  (∀ i : Instr, i.WellFormed = true → decode (encode i) = .ok i) ∧
  (∀ (cmd : CommandWord) (byte : Byte), decodeCommand cmd = .req byte → encode (.req byte) = .command cmd) ∧
  (∀ cmd : CommandWord, cmd &&& 0x700#11 ≠ 0x100#11 → encode (decodeCommand cmd) = .command (cmd &&& 0x700#11))

/-- R62: the event vector's three bits are what the table says, RESET suppresses everything else, and a cycle runs
exactly the operations its vector selects, the host command between SERVICE and COUNT. -/
def Obligations.EventVectorSelectsTheCycle : Prop :=
  (∀ (inp : CycleInput) (s0 s2 : State),
    (eventVector inp s0 s2).getLsbD 2 = inp.rst ∧
    (eventVector inp s0 s2).getLsbD 1 = (s0.tickPending && s0.tickIe && !inp.rst) ∧
    (eventVector inp s0 s2).getLsbD 0 = (s2.tmrOn && inp.cntEn && !inp.rst)) ∧
  (∀ ev : EventVector, decodeEvent ev =
    if ev.getLsbD 2 then [.reset]
    else (if ev.getLsbD 1 then [.service] else []) ++ (if ev.getLsbD 0 then [.count] else [])) ∧
  (∀ (inp : CycleInput) (s0 s1 s2 : State),
    (if s0.tickPending = true ∧ s0.tickIe = true then exec .service s0 else .next s0) = .next s1 →
    exec (decodeCommand inp.cmd) s1 = .next s2 →
    cycleWith inp s0 = runOps (cycleOps (eventVector inp s0 s2) inp.cmd) s0)

/-- The command words K1 to K15 and the event vectors of the rows X1 to X5 of spec/95_test_vectors.md section 2.1 decode
as those rows say, 0x800 is no command word. A decoder of one word answers one operation: that it answers SERVICE for
0b011, whose row X5 has SERVICE and COUNT, and refuses 0b000, whose row X2 has neither, is the model's choice (log
entry 11); the operations of the row are `decodeEvent`'s. -/
def Obligations.TableWordsDecode : Prop :=
  (decodeTableWord 11 0x000 = some .nop ∧ decodeTableWord 11 0x0FF = some .nop ∧
    decodeTableWord 11 0x100 = some (.req 0x00#8) ∧ decodeTableWord 11 0x1B2 = some (.req 0xB2#8) ∧
    decodeTableWord 11 0x1FF = some (.req 0xFF#8) ∧ decodeTableWord 11 0x200 = some .start ∧
    decodeTableWord 11 0x2AB = some .start ∧ decodeTableWord 11 0x300 = some .suspend ∧
    decodeTableWord 11 0x3FF = some .suspend ∧ decodeTableWord 11 0x400 = some .resume ∧
    decodeTableWord 11 0x455 = some .resume ∧ decodeTableWord 11 0x500 = some .illegal5 ∧
    decodeTableWord 11 0x5A7 = some .illegal5 ∧ decodeTableWord 11 0x600 = some .illegal6 ∧
    decodeTableWord 11 0x7FF = some .illegal7) ∧
  (decodeTableWord 11 0x800 = none ∧ decodeTableWord 16 0x1B2 = some (.req 0xB2#8)) ∧
  (decodeEvent 0b100#3 = [.reset] ∧ decodeEvent 0b101#3 = [.reset] ∧ decodeEvent 0b110#3 = [.reset] ∧
    decodeEvent 0b111#3 = [.reset] ∧ decodeEvent 0b000#3 = [] ∧ decodeEvent 0b001#3 = [.count] ∧
    decodeEvent 0b010#3 = [.service] ∧ decodeEvent 0b011#3 = [.service, .count]) ∧
  (decodeTableWord 3 0b100 = some .reset ∧ decodeTableWord 3 0b111 = some .reset ∧
    decodeTableWord 3 0b010 = some .service ∧ decodeTableWord 3 0b001 = some .count ∧
    decodeTableWord 3 0b000 = none ∧ decodeTableWord 8 0b011 = some .service)

/-! ## The cycle -/

/-- R118: one cycle is RESET alone when `rst` = 1; else SERVICE if due in `S0`, the host command, COUNT if due in `S2`,
each seeing the writes of the one before. -/
def Obligations.CycleIsServiceCommandCount : Prop :=
  ∀ (inp : CycleInput) (s0 : State),
    (inp.rst = true → cycleWith inp s0 = exec .reset s0) ∧
    (inp.rst = false → cycleWith inp s0 =
      andThen (if s0.tickPending = true ∧ s0.tickIe = true then exec .service s0 else .next s0) fun s1 =>
      andThen (exec (decodeCommand inp.cmd) s1) fun s2 =>
      if s2.tmrOn = true ∧ inp.cntEn = true then exec .count s2 else .next s2)

/-- A step runs the decoded instruction. A step samples the inputs, which changes no element of the machine, and is
the cycle of R118 on them: when the command word on the port decodes to `i` and `rst` = 0, `i` is well-formed and the
step is `exec i`, after the SERVICE that is due and before the COUNT that is due. The list of inputs and the free
values past its end are the model's own (log entries 4, 5, 7). -/
def Obligations.StepRunsDecodedCommand : Prop :=
  (∀ s : State, ∃ l d, sampleInput s = { s with inputs := l, draws := d }) ∧
  (∀ (s : State) (inp : CycleInput) (rest : List CycleInput), s.inputs = inp :: rest →
    nextInput s = inp ∧ sampleInput s = { s with inputs := rest }) ∧
  (∀ s : State, (nextInput s).rst = true → step s = exec .reset (sampleInput s)) ∧
  (∀ (s : State) (i : Instr), (nextInput s).rst = false → decode (.command (nextInput s).cmd) = .ok i →
    i.WellFormed = true ∧
    step s =
      andThen (if s.tickPending = true ∧ s.tickIe = true then exec .service (sampleInput s)
        else .next (sampleInput s)) fun s1 =>
      andThen (exec i s1) fun s2 =>
      if s2.tmrOn = true ∧ (nextInput s).cntEn = true then exec .count s2 else .next s2)

/-- R151: in a cycle with `rst` = 1 the command and `cnt_en` are ignored, whatever they are and whatever is due; the
machine starts from the reset state. -/
def Obligations.ResetDominates : Prop :=
  (∀ (s : State) (cntEn : Bool) (cmd : CommandWord),
    cycleWith { rst := true, cntEn := cntEn, cmd := cmd } s = exec .reset s) ∧
  core.reset = State.reset

/-- Every step has a next state: no operation stops the machine, TICK and the commands are total on all values of the
fields (R90, R129, U11), and a run of any length completes. -/
def Obligations.EveryStepHasANextState : Prop :=
  (∀ (i : Instr) (s : State), ∃ t, exec i s = .next t) ∧
  (∀ s : State, ∃ t, step s = .next t) ∧
  (∀ (n : Nat) (s : State), ∃ t, runCycles n s = .next t)

/-- R119, the spec's own inference: every cycle is an interleaving of atomic operations, each enabled in the state it
finds in the untimed view and each selected by an encoding of its own. R119 lists COUNT, SERVICE and the host commands;
that RESET, which it does not list, is always enabled is the model's (log entry 7). -/
def Obligations.EveryCycleIsAnInterleaving : Prop :=
  ∀ s : State, ∃ (ops : List Instr) (t : State),
    step s = .next t ∧ ops ≠ [] ∧ ops.length ≤ 3 ∧ (∀ i ∈ ops, i.WellFormed = true) ∧
    opsEnabled ops (sampleInput s) = true ∧ runOps ops (sampleInput s) = .next t

/-! ## Reset -/

/-- R150: RESET, selected by `ev[2]` = 1, which is the input `rst`, gives every element its reset value, `payload_byte`
some value; two resets equal one but for `payload_byte`; no other operation ends a transmission before its last
half-cell, and none clears a fault bit. (`d` is the model's draw counter, log entry 6.) -/
def Obligations.ResetOperation : Prop :=
  (∀ ev : EventVector, ev.getLsbD 2 = true → decodeEvent ev = [.reset]) ∧
  (∀ (inp : CycleInput) (s : State), inp.rst = true → cycleWith inp s = exec .reset s) ∧
  (∀ s : State, ∃ (p : Byte) (d : Nat) (t : State), exec .reset s = .next t ∧
    t = { s with
      outputLevel := .low, txRequest := false, payloadByte := p, framePhase := .sendingPreamble
      bitIndex := 0#3, halfPhase := .firstHalf, tmr := 0x0000#16, tmrOn := false, tickPending := false
      tickIe := false, fault := 0b00#2, draws := d } ∧
    ∃ (p' : Byte) (d' : Nat), exec .reset t = .next { t with payloadByte := p', draws := d' }) ∧
  (∀ (i : Instr) (s t : State), exec i s = .next t →
    (s.txRequest = true → t.txRequest = false → s.pos ≠ 31#5 → i = .reset) ∧
    (t.fault &&& s.fault ≠ s.fault → i = .reset))

/-- R30: what reset leaves, in every element but `payload_byte`, whose reset value is unspecified (a free value of the
model, log entry 3). -/
def Obligations.ResetState : Prop :=
  State.reset.outputLevel = .low ∧ State.reset.txRequest = false ∧ State.reset.framePhase = .sendingPreamble ∧
  State.reset.bitIndex = 0#3 ∧ State.reset.halfPhase = .firstHalf ∧ State.reset.tmr = 0x0000#16 ∧
  State.reset.tmrOn = false ∧ State.reset.tickPending = false ∧ State.reset.tickIe = false ∧
  State.reset.fault = 0b00#2

/-! ## Host commands -/

/-- R111: NOP writes nothing, whatever its operand bits; the cycle's SERVICE and COUNT are unaffected. -/
def Obligations.NopWritesNothing : Prop :=
  encode .nop = .command 0x000#11 ∧
  (∀ byte : Byte, decodeCommand (commandOf 0b000#3 byte) = .nop) ∧
  (∀ s : State, exec .nop s = .next s) ∧
  (∀ (s : State) (cntEn : Bool) (byte : Byte),
    cycleWith { rst := false, cntEn := cntEn, cmd := commandOf 0b000#3 byte } s =
      andThen (if s.tickPending = true ∧ s.tickIe = true then exec .service s else .next s) fun s1 =>
      if s1.tmrOn = true ∧ cntEn = true then exec .count s1 else .next s1)

/-- R112: an accepted REQ writes the five fields and nothing else (not the line, not the Tick Source, no fault); the
next TICK sends half-cell 0, LOW, whatever the line held. -/
def Obligations.AcceptedRequestWritesFiveFields : Prop :=
  ∀ (byte : Byte) (s : State),
    decodeCommand (0x100#11 ||| byte.setWidth 11) = .req byte ∧
    (s.txRequest = false → ∃ t,
      exec (.req byte) s = .next t ∧
      t = { s with
        payloadByte := byte, framePhase := .sendingPreamble, bitIndex := 0#3, halfPhase := .firstHalf
        txRequest := true } ∧
      ∃ u, exec .tick t = .next u ∧ u.outputLevel = .low)

/-- R113: a REQ while a transmission is active sets `fault[0]` and writes nothing else, whatever its byte (the one
being sent included): the frame in progress continues undisturbed. -/
def Obligations.RejectedRequestReportsOnly : Prop :=
  ∀ (byte : Byte) (s : State),
    decodeCommand (0x100#11 ||| byte.setWidth 11) = .req byte ∧
    (s.txRequest = true → exec (.req byte) s = .next { s with fault := s.fault ||| 0b01#2 })

/-- R114: START loads the timer with INIT_PRELOAD and lets it run, also while it runs, and writes nothing else (not
`tick_pending`, not `tick_ie`, not the encoder); the COUNT of its own cycle acts on the loaded value; no operation but
RESET stops the timer. -/
def Obligations.StartLoadsAndRuns : Prop :=
  encode .start = .command 0x200#11 ∧
  (∀ byte : Byte, decodeCommand (commandOf 0b010#3 byte) = .start) ∧
  (∀ s : State, exec .start s = .next { s with tmr := s.initPreload, tmrOn := true }) ∧
  (∀ (s : State) (byte : Byte), ∃ t,
    cycleWith { rst := false, cntEn := true, cmd := commandOf 0b010#3 byte } s = .next t ∧
    t.tmr = (if s.initPreload = 0#16 then 0xFFFF#16 else s.initPreload - 1#16)) ∧
  (∀ (i : Instr) (s t : State), exec i s = .next t → s.tmrOn = true → t.tmrOn = false → i = .reset)

/-- R115: SUSPEND clears `tick_ie` and nothing else, once or twice alike; it takes effect for the SERVICE condition of
the next cycle, not of its own; the timer counts and fires as with delivery on, and the line is left to TICK (and
RESET). -/
def Obligations.SuspendStopsDelivery : Prop :=
  encode .suspend = .command 0x300#11 ∧
  (∀ byte : Byte, decodeCommand (commandOf 0b011#3 byte) = .suspend) ∧
  (∀ s : State, exec .suspend s = .next { s with tickIe := false }) ∧
  (∀ s : State, s.tickIe = false → exec .suspend s = .next s) ∧
  (∀ (s : State) (cntEn : Bool) (byte : Byte), ∃ t u,
    (if s.tickPending = true ∧ s.tickIe = true then exec .service s else .next s) = .next u ∧
    cycleWith { rst := false, cntEn := cntEn, cmd := commandOf 0b011#3 byte } s = .next t ∧
    t.outputLevel = u.outputLevel ∧ t.pos = u.pos ∧ t.txRequest = u.txRequest ∧
    t.tickIe = false ∧ serviceDue t = false) ∧
  (∀ s : State, ∃ t, exec .count s = .next t ∧
    exec .count { s with tickIe := false } = .next { t with tickIe := false }) ∧
  (∀ (i : Instr) (s t : State), exec i s = .next t → isTick i = false → i ≠ .reset → t.outputLevel = s.outputLevel)

/-- R116: RESUME sets `tick_ie` and nothing else, once or twice alike; a tick pending at the end of its cycle is
serviced in the next, and RESUME never causes a TICK in its own cycle. -/
def Obligations.ResumeEnablesDelivery : Prop :=
  encode .resume = .command 0x400#11 ∧
  (∀ byte : Byte, decodeCommand (commandOf 0b100#3 byte) = .resume) ∧
  (∀ s : State, exec .resume s = .next { s with tickIe := true }) ∧
  (∀ s : State, s.tickIe = true → exec .resume s = .next s) ∧
  (∀ (s : State) (cntEn : Bool) (byte : Byte), ∃ t,
    cycleWith { rst := false, cntEn := cntEn, cmd := commandOf 0b100#3 byte } s = .next t ∧
    t.tickIe = true ∧ serviceDue t = t.tickPending ∧
    (s.tickIe = false → t.outputLevel = s.outputLevel ∧ t.pos = s.pos ∧ t.txRequest = s.txRequest))

/-- R117 and R60: a reserved opcode, whatever its operand bits, sets `fault[1]` and writes nothing else; the cycle's
SERVICE and COUNT still happen. -/
def Obligations.ReservedOpcodesReportOnly : Prop :=
  (∀ byte : Byte, decodeCommand (commandOf 0b101#3 byte) = .illegal5 ∧
    decodeCommand (commandOf 0b110#3 byte) = .illegal6 ∧ decodeCommand (commandOf 0b111#3 byte) = .illegal7) ∧
  (∀ s : State,
    exec .illegal5 s = .next { s with fault := s.fault ||| 0b10#2 } ∧
    exec .illegal6 s = .next { s with fault := s.fault ||| 0b10#2 } ∧
    exec .illegal7 s = .next { s with fault := s.fault ||| 0b10#2 }) ∧
  (∀ (s : State) (cntEn : Bool) (op : BitVec 3) (byte : Byte), op = 0b101#3 ∨ op = 0b110#3 ∨ op = 0b111#3 →
    cycleWith { rst := false, cntEn := cntEn, cmd := commandOf op byte } s =
      andThen (if s.tickPending = true ∧ s.tickIe = true then exec .service s else .next s) fun s1 =>
      andThen (.next { s1 with fault := s1.fault ||| 0b10#2 }) fun s2 =>
      if s2.tmrOn = true ∧ cntEn = true then exec .count s2 else .next s2)

/-! ## The Tick Source -/

/-- R76: COUNT decrements `tmr`, never borrowing, unless it finds 0, and then it is FIRE; it writes nothing else and
looks at neither `tick_ie` nor `tick_pending`; a cycle with `rst` = 0 (here with NOP and no SERVICE due) has a COUNT
when `tmr_on` = 1 and `cnt_en` = 1, and with `tmr_on` = 0 or `cnt_en` = 0 it has none and `tmr` holds. -/
def Obligations.CountDecrementsOrFires : Prop :=
  (∀ s : State, s.tmr = 0#16 → exec .count s = exec .fire s) ∧
  (∀ s : State, s.tmr ≠ 0#16 →
    exec .count s = .next { s with tmr := s.tmr - 1#16 } ∧ (s.tmr - 1#16).toNat = s.tmr.toNat - 1) ∧
  (∀ (s : State) (cntEn : Bool), s.tmrOn = true ∧ cntEn = true → serviceDue s = false →
    cycleWith { rst := false, cntEn := cntEn, cmd := 0x000#11 } s = exec .count s) ∧
  (∀ (s : State) (cntEn : Bool), s.tmrOn = false ∨ cntEn = false → serviceDue s = false →
    cycleWith { rst := false, cntEn := cntEn, cmd := 0x000#11 } s = .next s)

/-- R77: FIRE, which no encoding selects by itself, is the COUNT that finds `tmr` = 0; it sets `tick_pending`, which
the port `tick_flag` shows (R25), and wraps `tmr` to 0xFFFF, and writes nothing else; a firing that finds the tick
pending leaves it so; unless the timer is reloaded, the next firing comes after 0x10000 further COUNTs. -/
def Obligations.FireSetsPendingAndWraps : Prop :=
  (∀ cmd : CommandWord, decodeCommand cmd ≠ .fire) ∧ (∀ ev : EventVector, .fire ∉ decodeEvent ev) ∧
  ∀ s : State, ∃ t, exec .fire s = .next t ∧ t = { s with tickPending := true, tmr := 0xFFFF#16 } ∧
    t.outputs.tickFlag = true ∧
    (s.tmr = 0#16 → exec .count s = .next t) ∧ (s.tickPending = true → t = { s with tmr := 0xFFFF#16 }) ∧
    (∀ n, n < 0x10000 →
      runOps (List.replicate n .count) { t with tickPending := false } =
        .next { t with tickPending := false, tmr := 0xFFFF#16 - BitVec.ofNat 16 n }) ∧
    runOps (List.replicate 0x10000 .count) { t with tickPending := false } = .next t

/-- A value `V` in the timer gives `V + 1` COUNTs to the firing (R78's reading of "countdown", the spec's own). -/
def Obligations.ValuePlusOneCountsToTheFiring : Prop :=
  ∀ (s : State) (n : Nat),
    (n ≤ s.tmr.toNat →
      runOps (List.replicate n .count) s = .next { s with tmr := s.tmr - BitVec.ofNat 16 n }) ∧
    (n = s.tmr.toNat + 1 →
      runOps (List.replicate n .count) s = .next { s with tickPending := true, tmr := 0xFFFF#16 })

/-- R79: RELOAD, which no encoding selects by itself, loads HANDLER_RELOAD whatever `tmr` held, and writes nothing
else; when the value is 0 the COUNT of the same cycle fires at once (a cycle with a SERVICE due and any command but
START). -/
def Obligations.ReloadLoadsHandlerReload : Prop :=
  (∀ cmd : CommandWord, decodeCommand cmd ≠ .reload) ∧ (∀ ev : EventVector, .reload ∉ decodeEvent ev) ∧
  (∀ s : State, exec .reload s = .next { s with tmr := s.handlerReload }) ∧
  (∀ (s : State) (cmd : CommandWord),
    serviceDue s = true → s.tmrOn = true → s.handlerReload = 0#16 → decodeCommand cmd ≠ .start →
    ∃ t, cycleWith { rst := false, cntEn := true, cmd := cmd } s = .next t ∧
      t.tickPending = true ∧ t.tmr = 0xFFFF#16)

/-- R80: ACK, which no encoding selects by itself, clears `tick_pending` and writes nothing else; a firing in the same
cycle, after the ACK, sets it again, and with delivery on it is serviced in the next cycle: it is not lost. -/
def Obligations.AckClearsPending : Prop :=
  (∀ cmd : CommandWord, decodeCommand cmd ≠ .ack) ∧ (∀ ev : EventVector, .ack ∉ decodeEvent ev) ∧
  (∀ s : State, exec .ack s = .next { s with tickPending := false }) ∧
  (∀ (s : State) (inp : CycleInput) (s1 s2 : State),
    inp.rst = false → serviceDue s = true → exec .service s = .next s1 → exec (decodeCommand inp.cmd) s1 = .next s2 →
    s2.tmrOn = true → inp.cntEn = true → s2.tmr = 0#16 →
    s1.tickPending = false ∧
    ∃ t, cycleWith inp s = .next t ∧ t.tickPending = true ∧ t.tickIe = s2.tickIe ∧ serviceDue t = s2.tickIe)

/-- R81: SERVICE is selected by `ev[1]` = 1 (with `ev[2]` = 0), which is `tick_pending` = 1 and `tick_ie` = 1 at the
start of the cycle and `rst` = 0; it is RELOAD; ACK; TICK, one atomic operation; the order among the three cannot be
observed; it loads the timer, clears the pending bit, which the port `tick_flag` shows (R25), and on the encoder does
what TICK does. -/
def Obligations.ServiceIsReloadAckTick : Prop :=
  (∀ ev : EventVector, .service ∈ decodeEvent ev ↔ ev.getLsbD 2 = false ∧ ev.getLsbD 1 = true) ∧
  (∀ (inp : CycleInput) (s0 s2 : State), (eventVector inp s0 s2).getLsbD 1 = true ↔
    s0.tickPending = true ∧ s0.tickIe = true ∧ inp.rst = false) ∧
  ∀ s : State,
    (∀ ops : List Instr, ops.Perm [.reload, .ack, .tick] → runOps ops s = exec .service s) ∧
    ∃ t u, exec .service s = .next t ∧ exec .tick s = .next u ∧
      t = { u with tmr := s.handlerReload, tickPending := false } ∧
      s.outputs.tickFlag = s.tickPending ∧ t.outputs.tickFlag = false

/-- R160: `tick_pending` is one bit: a firing that finds it set changes the timer alone, no fault records the loss. With
delivery enabled no COUNT finds a pending tick: the SERVICE of its own cycle has cleared it. -/
def Obligations.FiringWhilePendingIsLost : Prop :=
  (∀ s : State, s.tickPending = true → s.tmr = 0#16 → exec .count s = .next { s with tmr := 0xFFFF#16 }) ∧
  (∀ (s s1 s2 : State) (cmd : CommandWord), s.tickIe = true →
    (if s.tickPending = true ∧ s.tickIe = true then exec .service s else .next s) = .next s1 →
    exec (decodeCommand cmd) s1 = .next s2 → s2.tickPending = false)

/-- The spec's own inference R84: with delivery enabled, the timer on, `cnt_en` = 1 throughout and no START, SUSPEND or
reset, the SERVICE after one in this cycle comes exactly HANDLER_RELOAD + 1 cycles later, and none before. -/
def Obligations.ServicesAreReloadPlusOneCyclesApart : Prop :=
  ∀ (s : State) (n : Nat),
    serviceDue s = true → s.tmrOn = true →
    NoReset (inputsDuring (s.handlerReload.toNat + 1) s) →
    AlwaysCounts (inputsDuring (s.handlerReload.toNat + 1) s) →
    NeverCommands .start (inputsDuring (s.handlerReload.toNat + 1) s) →
    NeverCommands .suspend (inputsDuring (s.handlerReload.toNat + 1) s) →
    1 ≤ n → n ≤ s.handlerReload.toNat + 1 →
    ∃ t, runCycles n s = .next t ∧ (serviceDue t = true ↔ n = s.handlerReload.toNat + 1) ∧
      ticksDuring n s = 1

/-- The spec's own inference R84 on the first period (R153): after a START in this cycle, with nothing pending,
`cnt_en` = 1 throughout, no further START and no reset, the first SERVICE is in the cycle INIT_PRELOAD + 1 after it, if
delivery is on by the firing cycle: `tick_ie` is 1 already and no SUSPEND comes, or a RESUME is presented in one of the
cycles up to the firing one (the boot order START, RESUME of R152 and of INIT) and no SUSPEND after it. -/
def Obligations.FirstServiceAfterStart : Prop :=
  ∀ (s : State) (inps : List CycleInput) (n : Nat),
    inps = inputsDuring (s.initPreload.toNat + 1) s →
    s.tickPending = false → decodeCommand (nextInput s).cmd = .start →
    NoReset inps → AlwaysCounts inps → NeverCommands .start inps.tail →
    (s.tickIe = true ∧ NeverCommands .suspend inps ∨
      ∃ (k : Nat) (inp : CycleInput), inps[k]? = some inp ∧ decodeCommand inp.cmd = .resume ∧
        NeverCommands .suspend (inps.drop (k + 1))) →
    1 ≤ n → n ≤ s.initPreload.toNat + 1 →
    ∃ t, runCycles n s = .next t ∧ (serviceDue t = true ↔ n = s.initPreload.toNat + 1) ∧ ticksDuring n s = 0

/-! ## The encoder -/

/-- R90: TICK, which no encoding selects by itself, completes in every state, writes only encoder fields and never
`payload_byte`; it never sets `tx_request` and clears it only where it finds the last half-cell; what it does to the
encoder fields depends on the six encoder fields alone. -/
def Obligations.TickTouchesTheEncoderOnly : Prop :=
  (∀ cmd : CommandWord, decodeCommand cmd ≠ .tick) ∧ (∀ ev : EventVector, .tick ∉ decodeEvent ev) ∧
  (∀ s : State, ∃ t, exec .tick s = .next t ∧
    t = { s with
      outputLevel := t.outputLevel, txRequest := t.txRequest, framePhase := t.framePhase
      bitIndex := t.bitIndex, halfPhase := t.halfPhase } ∧
    (t.txRequest = true → s.txRequest = true) ∧
    (s.txRequest = true → t.txRequest = false → s.pos = 31#5)) ∧
  (∀ s s' t t' : State,
    s.outputLevel = s'.outputLevel → s.txRequest = s'.txRequest → s.payloadByte = s'.payloadByte →
    s.framePhase = s'.framePhase → s.bitIndex = s'.bitIndex → s.halfPhase = s'.halfPhase →
    exec .tick s = .next t → exec .tick s' = .next t' →
    t.outputLevel = t'.outputLevel ∧ t.txRequest = t'.txRequest ∧ t.payloadByte = t'.payloadByte ∧
    t.framePhase = t'.framePhase ∧ t.bitIndex = t'.bitIndex ∧ t.halfPhase = t'.halfPhase)

/-- R91: an idle TICK forces the line LOW, whatever the other fields hold, and writes nothing else; a second one changes
nothing. -/
def Obligations.IdleTickForcesLow : Prop :=
  ∀ s : State, s.txRequest = false →
    ∃ t, exec .tick s = .next t ∧ t = { s with outputLevel := .low } ∧ exec .tick t = .next t

/-- R92, R93, R94: in a first half the line takes the complement of bit `7 - bit_index` of the active byte, whatever it
held, `half_phase` becomes SECOND_HALF, and nothing else changes; the preamble does not read `payload_byte`. -/
def Obligations.FirstHalfSendsTheComplement : Prop :=
  ∀ s : State, s.txRequest = true → s.halfPhase = .firstHalf →
    (s.framePhase = .sendingPreamble →
      exec .tick s = .next { s with outputLevel := .low, halfPhase := .secondHalf }) ∧
    (s.framePhase = .sendingPayload →
      exec .tick s = .next { s with
        outputLevel := if s.payloadByte.getLsbD (7 - s.bitIndex.toNat) = true then .low else .high
        halfPhase := .secondHalf })

/-- R96 to R99: in a second half the line is inverted whatever it held, `half_phase` becomes FIRST_HALF, `bit_index`
advances modulo 8; from `bit_index` 7 the preamble (`pos` 15) is followed by the payload, and the payload (`pos` 31) by
nothing: `tx_request` falls and `frame_phase` stays; where the line and the place agree the second half-cell is the data
bit. -/
def Obligations.SecondHalfInvertsAndAdvances : Prop :=
  ∀ s : State, s.txRequest = true → s.halfPhase = .secondHalf →
    (s.bitIndex ≠ 7#3 → exec .tick s = .next { s with
      outputLevel := if s.outputLevel = .low then .high else .low
      halfPhase := .firstHalf, bitIndex := s.bitIndex + 1#3 }) ∧
    (s.bitIndex = 7#3 → s.framePhase = .sendingPreamble → s.pos = 15#5 ∧ exec .tick s = .next { s with
      outputLevel := if s.outputLevel = .low then .high else .low
      halfPhase := .firstHalf, bitIndex := 0#3, framePhase := .sendingPayload }) ∧
    (s.bitIndex = 7#3 → s.framePhase = .sendingPayload → s.pos = 31#5 ∧ exec .tick s = .next { s with
      outputLevel := if s.outputLevel = .low then .high else .low
      halfPhase := .firstHalf, bitIndex := 0#3, txRequest := false }) ∧
    (s.Inv → ∃ t, exec .tick s = .next t ∧ t.outputLevel = Level.ofBit (dataBit s))

/-- The spec's own inference R100: the encoder in `pos`. An even place drives the complement of the data bit, an odd one
inverts; the place advances by one, but from 31 it reads 16 and the request is over. -/
def Obligations.TickAdvancesThePosition : Prop :=
  ∀ s : State, s.txRequest = true → ∃ t, exec .tick s = .next t ∧
    (s.pos.getLsbD 0 = false → t.outputLevel = Level.ofBit (!dataBit s)) ∧
    (s.pos.getLsbD 0 = true → t.outputLevel ≠ s.outputLevel) ∧
    (s.pos ≠ 31#5 → t.pos = s.pos + 1#5 ∧ t.txRequest = true) ∧
    (s.pos = 31#5 → t.pos = 16#5 ∧ t.txRequest = false)

/-- R102: the state-machine summary, row by row, and no other way from a transmission to IDLE. -/
def Obligations.SummaryTransitions : Prop :=
  ∀ s : State,
    (s.summary = .idle →
      (∃ t, exec .tick s = .next t ∧ t.summary = .idle ∧ t.outputLevel = .low) ∧
      ∀ byte, ∃ t, exec (.req byte) s = .next t ∧ t.summary = .preamble ∧ t.pos = 0#5) ∧
    (s.summary = .preamble → ∃ t, exec .tick s = .next t ∧
      (s.pos.toNat ≤ 14 → t.summary = .preamble ∧ t.pos = s.pos + 1#5) ∧
      (s.pos = 15#5 → t.summary = .payload ∧ t.pos = 16#5)) ∧
    (s.summary = .payload → ∃ t, exec .tick s = .next t ∧
      (16 ≤ s.pos.toNat ∧ s.pos.toNat ≤ 30 → t.summary = .payload ∧ t.pos = s.pos + 1#5) ∧
      (s.pos = 31#5 → t.summary = .idle)) ∧
    (s.summary ≠ .idle → ∀ byte, ∃ t, exec (.req byte) s = .next t ∧
      t = { s with fault := s.fault ||| 0b01#2 }) ∧
    (∃ t, exec .reset s = .next t ∧ t.summary = .idle) ∧
    (∀ (i : Instr) (t : State), exec i s = .next t → s.summary ≠ .idle → t.summary = .idle →
      i = .reset ∨ (i = .tick ∨ i = .service) ∧ s.pos = 31#5)

/-- R64 (whose second half is the spec's own inference): a data bit `b` is sent as two half-cells, first `not b`, then
`b`, whatever commands and counts come between the two TICKs; so a transition always occurs at mid-cell. -/
def Obligations.BitIsSentAsComplementThenBit : Prop :=
  ∀ (s : State) (ops : List Instr),
    s.txRequest = true → s.halfPhase = .firstHalf → (∀ i ∈ ops, isTick i = false ∧ i ≠ .reset) →
    ∃ t u v, exec .tick s = .next t ∧ runOps ops t = .next u ∧ exec .tick u = .next v ∧
      t.outputLevel = Level.ofBit (!dataBit s) ∧ u.outputLevel = t.outputLevel ∧
      v.outputLevel = Level.ofBit (dataBit s)

/-- The spec's own inference R65: `M(B)` bit by bit, its values, that it is injective; and that the frame is
`{0x5555, M(P)}`. -/
def Obligations.ByteExpansion : Prop :=
  (∀ (byte : Byte) (i : Nat), i < 8 →
    (manchester byte).getLsbD (15 - 2 * i) = (!byte.getLsbD (7 - i)) ∧
    (manchester byte).getLsbD (14 - 2 * i) = byte.getLsbD (7 - i)) ∧
  (∀ byte byte' : Byte, manchester byte = manchester byte' → byte = byte') ∧
  manchester 0xFF#8 = 0x5555#16 ∧ manchester 0x00#8 = 0xAAAA#16 ∧ manchester 0xB2#8 = 0x65A6#16 ∧
  (∀ payload : Byte, frameCells payload = 0x5555#16 ++ manchester payload)

/-- R103: exactly 32 ticks elapse between an accepted request and `tx_request` becoming false, for any byte and
whatever the spacing of the ticks and the commands in between: through the first 31 the transmission stands, its place
is the number of ticks and its byte is kept; the 32nd ends it. -/
def Obligations.FrameTakesThirtyTwoTicks : Prop :=
  ∀ (s0 : State) (byte : Byte), s0.txRequest = false → ∃ s, exec (.req byte) s0 = .next s ∧
    ∀ n : Nat, NoReset (inputsDuring n s) → ∃ t, runCycles n s = .next t ∧
      (ticksDuring n s ≤ 31 →
        t.txRequest = true ∧ t.pos.toNat = ticksDuring n s ∧ t.payloadByte = byte) ∧
      (ticksDuring n s = 31 → tickHappens t = true →
        ∃ u, exec .service (sampleInput t) = .next u ∧ u.txRequest = false)

/-- R63 and R104: half-cell `p` of the frame is on the line, which the port `tx_out` shows (R25), from the TICK that
finds `pos` = `p` until the next TICK: after `k` ticks of a frame the line shows half-cell `k - 1`, for every byte,
every spacing of the ticks and every command in between. Half-cells 0 to 15 are LOW, HIGH eight times; those of
payload bit `7 - i` are `not b`, `b`. -/
def Obligations.LineShowsTheFrame : Prop :=
  ∀ (s0 : State) (byte : Byte), s0.txRequest = false → ∃ s, exec (.req byte) s0 = .next s ∧
    ∀ (n p : Nat), NoReset (inputsDuring n s) → ticksDuring n s = p + 1 → p < 32 →
      ∃ t, runCycles n s = .next t ∧ t.outputs.txOut = t.outputLevel ∧
        (p < 16 → t.outputLevel = if p % 2 = 0 then .low else .high) ∧
        (16 ≤ p → t.outputLevel =
          Level.ofBit (if p % 2 = 0 then !byte.getLsbD (7 - (p - 16) / 2) else byte.getLsbD (7 - (p - 16) / 2)))

/-- R105: an accepted REQ changes no output level by itself: the line keeps its level until the next TICK, which sends
half-cell 0. -/
def Obligations.RequestWaitsForTheTick : Prop :=
  ∀ (s0 : State) (byte : Byte), s0.txRequest = false → ∃ s, exec (.req byte) s0 = .next s ∧
    s.outputLevel = s0.outputLevel ∧
    ∀ n : Nat, NoReset (inputsDuring n s) → ticksDuring n s = 0 → ∃ t, runCycles n s = .next t ∧
      t.outputLevel = s0.outputLevel ∧
      (tickHappens t = true → ∃ u, exec .service (sampleInput t) = .next u ∧
        u.outputLevel = .low ∧ u.pos = 1#5 ∧ u.txRequest = true)

/-- While the preamble is sent a TICK does not read `payload_byte`, nor does an idle one (R92, R91): changing it changes
nothing else of the outcome ("Preamble invariance", R14). -/
def Obligations.PreambleIgnoresThePayload : Prop :=
  ∀ (s : State) (payload : Byte), s.txRequest = false ∨ s.framePhase = .sendingPreamble →
    ∃ t, exec .tick s = .next t ∧
      exec .tick { s with payloadByte := payload } = .next { t with payloadByte := payload }

/-- The spec's own inference in R13: `payload_byte` before the first request is never observed. Two runs from an idle
state that differ in `payload_byte` alone show the same outputs, and they are equal in everything but `payload_byte`;
as soon as a transmission is active they are equal. -/
def Obligations.PayloadBeforeRequestIsUnobservable : Prop :=
  ∀ (s : State) (payload : Byte) (n : Nat), s.txRequest = false →
    ∃ t t', runCycles n s = .next t ∧ runCycles n { s with payloadByte := payload } = .next t' ∧
      t'.outputs = t.outputs ∧ t' = { t with payloadByte := t'.payloadByte } ∧
      (t.txRequest = true → t' = t)

/-! ## Invariants and rules of the whole machine -/

/-- The invariant holds right after reset, whatever the free values are. -/
def Obligations.InvariantAtReset : Prop := State.reset.Inv

/-- Every step keeps the invariant, and every operation does where it can happen (the spec's own inferences R29, R67,
R154): while idle the place is 0 or 16 and the line is LOW or still shows the last half-cell; while active the line
shows the half-cell just sent; nothing is pending before START. So an accepted REQ finds `bit_index` and `half_phase`
0 already. -/
def Obligations.StepKeepsTheInvariant : Prop :=
  (∀ s t : State, s.Inv → step s = .next t → t.Inv) ∧
  (∀ (i : Instr) (s t : State), (i = .count ∨ i = .fire → s.tmrOn = true) → s.Inv → exec i s = .next t → t.Inv) ∧
  (∀ (s : State) (byte : Byte), s.Inv → s.txRequest = false →
    ∃ t, exec (.req byte) s = .next t ∧ t.bitIndex = s.bitIndex ∧ t.halfPhase = s.halfPhase)

/-- Who writes what (the column "written by" of the table of spec/10_state.md section 1): an element changes only by the
operations that column names for it, their wholes and parts, and RESET; the parameters and the inputs by none. -/
def Obligations.ElementsAreWrittenByTheirOperations : Prop :=
  ∀ (i : Instr) (s t : State), exec i s = .next t →
    (t.outputLevel ≠ s.outputLevel → isTick i = true ∨ i = .reset) ∧
    (t.txRequest ≠ s.txRequest → isReq i = true ∨ isTick i = true ∨ i = .reset) ∧
    (t.payloadByte ≠ s.payloadByte → isReq i = true ∨ i = .reset) ∧
    (t.framePhase ≠ s.framePhase → isReq i = true ∨ isTick i = true ∨ i = .reset) ∧
    (t.bitIndex ≠ s.bitIndex → isReq i = true ∨ isTick i = true ∨ i = .reset) ∧
    (t.halfPhase ≠ s.halfPhase → isReq i = true ∨ isTick i = true ∨ i = .reset) ∧
    (t.tmr ≠ s.tmr → i = .count ∨ i = .fire ∨ i = .reload ∨ i = .service ∨ i = .start ∨ i = .reset) ∧
    (t.tmrOn ≠ s.tmrOn → i = .start ∨ i = .reset) ∧
    (t.tickPending ≠ s.tickPending → i = .count ∨ i = .fire ∨ i = .ack ∨ i = .service ∨ i = .reset) ∧
    (t.tickIe ≠ s.tickIe → i = .suspend ∨ i = .resume ∨ i = .reset) ∧
    (t.fault.getLsbD 0 ≠ s.fault.getLsbD 0 → isReq i = true ∨ i = .reset) ∧
    (t.fault.getLsbD 1 ≠ s.fault.getLsbD 1 → isIllegal i = true ∨ i = .reset) ∧
    t.initPreload = s.initPreload ∧ t.handlerReload = s.handlerReload ∧ t.inputs = s.inputs

/-- R12: `tx_request` is set only by an accepted REQ, cleared only by the TICK at `pos` = 31 or by reset, drives `busy`,
and is 0 after reset. -/
def Obligations.RequestFlagLifetime : Prop :=
  (∀ (i : Instr) (s t : State), exec i s = .next t →
    (s.txRequest = false → t.txRequest = true → ∃ byte, i = .req byte) ∧
    (s.txRequest = true → t.txRequest = false → i = .reset ∨ (i = .tick ∨ i = .service) ∧ s.pos = 31#5)) ∧
  (∀ s : State, s.outputs.busy = s.txRequest) ∧
  State.reset.txRequest = false

/-- R24: a fault bit, once 1, stays 1 until reset; `fault[0]` rises exactly by a REQ while `tx_request` = 1, `fault[1]`
exactly by a reserved opcode; the register drives the port and is 0b00 after reset. -/
def Obligations.FaultBitsAreSticky : Prop :=
  (∀ (i : Instr) (s t : State), i ≠ .reset → exec i s = .next t →
    t.fault.getLsbD 0 = (s.fault.getLsbD 0 || (isReq i && s.txRequest)) ∧
    t.fault.getLsbD 1 = (s.fault.getLsbD 1 || isIllegal i)) ∧
  (∀ s t : State, (nextInput s).rst = false → step s = .next t → t.fault &&& s.fault = s.fault) ∧
  (∀ s : State, s.outputs.fault = s.fault) ∧
  State.reset.fault = 0b00#2

/-- No other synchronous fault (the spec's own inference R129): the operations that are neither REQ nor a reserved
opcode nor RESET leave `fault` alone, an accepted REQ too, and no command sets both bits. -/
def Obligations.OnlyTwoFaultCauses : Prop :=
  ∀ (i : Instr) (s t : State), exec i s = .next t → i ≠ .reset →
    ((isReq i = false ∧ isIllegal i = false) ∨ (isReq i = true ∧ s.txRequest = false) → t.fault = s.fault) ∧
    (t.fault.getLsbD 0 = s.fault.getLsbD 0 ∨ t.fault.getLsbD 1 = s.fault.getLsbD 1)

/-- The critical section (spec/20_memory.md section 6, spec/60_exceptions.md section 2): while delivery is suspended and
no RESUME comes, no TICK happens, in the cycle after those neither (it may be the RESUME's own), the line and the place
in a frame already begun hold, and a pending tick waits. -/
def Obligations.SuspendedRunHasNoTick : Prop :=
  ∀ (s : State) (n : Nat), s.tickIe = false →
    NoReset (inputsDuring n s) → NeverCommands .resume (inputsDuring n s) →
    ∃ t, runCycles n s = .next t ∧ ticksDuring n s = 0 ∧ ticksDuring (n + 1) s = 0 ∧
      t.outputLevel = s.outputLevel ∧ t.tickIe = false ∧
      (s.txRequest = true → t.txRequest = true ∧ t.pos = s.pos ∧ t.payloadByte = s.payloadByte) ∧
      (s.tickPending = true → t.tickPending = true)

/-- Before boot (the spec's own inference R154): with the timer never started no count, no firing and no tick happens,
the line does not change, and without a REQ the encoder does not change either. -/
def Obligations.NothingMovesBeforeBoot : Prop :=
  ∀ (s : State) (n : Nat), s.tmrOn = false → s.tickPending = false →
    NoReset (inputsDuring n s) → NeverCommands .start (inputsDuring n s) →
    ∃ t, runCycles n s = .next t ∧ ticksDuring n s = 0 ∧ t.outputLevel = s.outputLevel ∧
      t.tmr = s.tmr ∧ t.tmrOn = false ∧ t.tickPending = false ∧ (s.txRequest = true → t.txRequest = true) ∧
      ((∀ byte, NeverCommands (.req byte) (inputsDuring n s)) →
        t.txRequest = s.txRequest ∧ t.payloadByte = s.payloadByte ∧ t.pos = s.pos)

/-- While no request comes an idle machine stays idle (spec/60_exceptions.md section 1: `busy` rises only by the host's
REQ), and no field of the encoder but the line changes: it holds or falls to LOW (spec/10_state.md section 8,
"Idempotent idle"). -/
def Obligations.IdleStaysIdle : Prop :=
  ∀ (s : State) (n : Nat), s.txRequest = false → NoReset (inputsDuring n s) →
    (∀ byte, NeverCommands (.req byte) (inputsDuring n s)) →
    ∃ t, runCycles n s = .next t ∧ t.txRequest = false ∧ t.payloadByte = s.payloadByte ∧ t.pos = s.pos ∧
      (ticksDuring n s = 0 → t.outputLevel = s.outputLevel) ∧ (1 ≤ ticksDuring n s → t.outputLevel = .low)

/-- Back-to-back frames (spec/20_memory.md section 6 (c), spec/95_test_vectors.md S1): a REQ presented in the cycle of
the TICK that ends a frame is accepted, the last half-cell goes out in that cycle, and no fault is raised. -/
def Obligations.RequestInTheLastTickCycleIsAccepted : Prop :=
  ∀ (s : State) (cntEn : Bool) (byte : Byte),
    serviceDue s = true → s.txRequest = true → s.pos = 31#5 →
    ∃ t, cycleWith { rst := false, cntEn := cntEn, cmd := 0x100#11 ||| byte.setWidth 11 } s = .next t ∧
      t.txRequest = true ∧ t.pos = 0#5 ∧ t.payloadByte = byte ∧ t.fault = s.fault ∧
      t.outputLevel ≠ s.outputLevel

/-! ## The command-stream notation -/

/-- The pseudo-instructions of spec/30_encoding.md section 5 expand as its table says; WAITIDLE ends at once where
`busy` = 0 and presents one more NOP where it is 1. The table gives `!hold` for WAIT alone: that the mark on INIT,
SEND, ATOMIC and WAITIDLE stands on each of their cycles, and that `playStream` is bounded by `fuel`, are the model's
choices (log entry 15). -/
def Obligations.PseudoInstructionsExpand : Prop :=
  (∀ (hold : Bool) (n : Nat), assembleLine ⟨.wait n, hold⟩ =
    List.replicate n (.cycle { rst := false, cntEn := !hold, cmd := 0x000#11 })) ∧
  (∀ hold : Bool, assembleLine ⟨.init, hold⟩ = assemble [⟨.start, hold⟩, ⟨.resume, hold⟩]) ∧
  (∀ (hold : Bool) (byte : Byte), assembleLine ⟨.send byte, hold⟩ =
    [.cycle { rst := false, cntEn := !hold, cmd := 0x100#11 ||| byte.setWidth 11 }]) ∧
  (∀ (hold : Bool) (body : List StreamLine),
    assemble (⟨.atomicOpen, hold⟩ :: body ++ [⟨.atomicClose, hold⟩]) =
      assemble [⟨.suspend, hold⟩] ++ assemble body ++ assemble [⟨.resume, hold⟩]) ∧
  (∀ (s : State) (fuel : Nat) (hold : Bool) (rest : List StreamItem), s.txRequest = false →
    playStream (fuel + 1) (.waitIdle hold :: rest) s = playStream fuel rest s) ∧
  (∀ (s : State) (fuel : Nat) (hold : Bool) (rest : List StreamItem), s.txRequest = true →
    playStream (fuel + 1) (.waitIdle hold :: rest) s =
      andThen (step (presentInput { rst := false, cntEn := !hold, cmd := 0x000#11 } s))
        (playStream fuel (.waitIdle hold :: rest)))
end

