-- ==== Sys2Proof/Laws/Decode.lean ====
section
/-! SUPPORT. The fields of a command word: reading them back, putting them together, and the mask of the opcode. -/
namespace Sys2Proof

@[simp] theorem opcodeOf_commandOf (op : BitVec 3) (byte : Byte) : opcodeOf (commandOf op byte) = op :=
  BitVec.extractLsb'_append_eq_left

@[simp] theorem operandOf_commandOf (op : BitVec 3) (byte : Byte) : operandOf (commandOf op byte) = byte :=
  BitVec.extractLsb'_append_eq_right

/-- A command word is its two fields (R57). -/
theorem commandOf_fields (cmd : CommandWord) : commandOf (opcodeOf cmd) (operandOf cmd) = cmd := by
  unfold commandOf opcodeOf operandOf
  rw [BitVec.extractLsb'_append_extractLsb'_eq_extractLsb' (by omega)]
  exact BitVec.extractLsb'_eq_self

/-- The opcode has eight values (R58). -/
theorem opcode_cases (op : BitVec 3) :
    op = 0#3 ∨ op = 1#3 ∨ op = 2#3 ∨ op = 3#3 ∨ op = 4#3 ∨ op = 5#3 ∨ op = 6#3 ∨ op = 7#3 := by
  revert op; decide

/-- The mask 0x700 keeps the opcode and clears the operand (R58). -/
theorem commandOf_mask (op : BitVec 3) (byte : Byte) : commandOf op byte &&& 0x700#11 = commandOf op 0#8 := by
  have and_ones : op &&& 7#3 = op := by revert op; decide
  rw [show (0x700#11 : CommandWord) = (7#3 ++ 0#8 : BitVec 11) by decide, commandOf, BitVec.and_append, and_ones,
    BitVec.and_zero]
  rfl

/-- The word of REQ as R112 writes it. -/
theorem reqWord_eq (byte : Byte) : 0x100#11 ||| byte.setWidth 11 = commandOf 0b001#3 byte := by
  unfold commandOf
  apply BitVec.eq_of_getLsbD_eq
  intro k hk
  simp only [BitVec.getLsbD_append, BitVec.getLsbD_or, BitVec.getLsbD_setWidth]
  rcases k with _ | _ | _ | _ | _ | _ | _ | _ | _ | _ | _ | k <;> simp

/-- The decoder reads the opcode, and of the operand what REQ needs (R58, R59, R61). -/
theorem decodeCommand_commandOf (op : BitVec 3) (byte : Byte) :
    decodeCommand (commandOf op byte) =
      match op.toNat with
      | 0 => .nop
      | 1 => .req byte
      | 2 => .start
      | 3 => .suspend
      | 4 => .resume
      | 5 => .illegal5
      | 6 => .illegal6
      | _ => .illegal7 := by
  simp only [decodeCommand, opcodeOf_commandOf, operandOf_commandOf] <;> rfl

/-- What the decoder answers is a host command (R56). -/
theorem decodeCommand_isCommand (cmd : CommandWord) : (decodeCommand cmd).isCommand = true := by
  unfold decodeCommand; split <;> rfl

end Sys2Proof
end

