-- ==== Sys2Proof/Laws/State.lean ====
section
/-! SUPPORT. One lemma for each field and each named update of the state, so that no proof unfolds a record update. -/
namespace Sys2Proof.Machine

/-! ### raise -/

@[simp] theorem raise_outputLevel (c : FaultCause) (s : State) : (raise c s).outputLevel = s.outputLevel := rfl
@[simp] theorem raise_txRequest (c : FaultCause) (s : State) : (raise c s).txRequest = s.txRequest := rfl
@[simp] theorem raise_payloadByte (c : FaultCause) (s : State) : (raise c s).payloadByte = s.payloadByte := rfl
@[simp] theorem raise_framePhase (c : FaultCause) (s : State) : (raise c s).framePhase = s.framePhase := rfl
@[simp] theorem raise_bitIndex (c : FaultCause) (s : State) : (raise c s).bitIndex = s.bitIndex := rfl
@[simp] theorem raise_halfPhase (c : FaultCause) (s : State) : (raise c s).halfPhase = s.halfPhase := rfl
@[simp] theorem raise_tmr (c : FaultCause) (s : State) : (raise c s).tmr = s.tmr := rfl
@[simp] theorem raise_tmrOn (c : FaultCause) (s : State) : (raise c s).tmrOn = s.tmrOn := rfl
@[simp] theorem raise_tickPending (c : FaultCause) (s : State) : (raise c s).tickPending = s.tickPending := rfl
@[simp] theorem raise_tickIe (c : FaultCause) (s : State) : (raise c s).tickIe = s.tickIe := rfl
@[simp] theorem raise_fault (c : FaultCause) (s : State) : (raise c s).fault = setFaultBit c s.fault := rfl
@[simp] theorem raise_inputs (c : FaultCause) (s : State) : (raise c s).inputs = s.inputs := rfl
@[simp] theorem raise_initPreload (c : FaultCause) (s : State) : (raise c s).initPreload = s.initPreload := rfl
@[simp] theorem raise_handlerReload (c : FaultCause) (s : State) : (raise c s).handlerReload = s.handlerReload := rfl
@[simp] theorem raise_draws (c : FaultCause) (s : State) : (raise c s).draws = s.draws := rfl

/-! ### loadTimer -/

@[simp] theorem loadTimer_outputLevel (v : TimerWord) (s : State) : (loadTimer v s).outputLevel = s.outputLevel := rfl
@[simp] theorem loadTimer_txRequest (v : TimerWord) (s : State) : (loadTimer v s).txRequest = s.txRequest := rfl
@[simp] theorem loadTimer_payloadByte (v : TimerWord) (s : State) : (loadTimer v s).payloadByte = s.payloadByte := rfl
@[simp] theorem loadTimer_framePhase (v : TimerWord) (s : State) : (loadTimer v s).framePhase = s.framePhase := rfl
@[simp] theorem loadTimer_bitIndex (v : TimerWord) (s : State) : (loadTimer v s).bitIndex = s.bitIndex := rfl
@[simp] theorem loadTimer_halfPhase (v : TimerWord) (s : State) : (loadTimer v s).halfPhase = s.halfPhase := rfl
@[simp] theorem loadTimer_tmr (v : TimerWord) (s : State) : (loadTimer v s).tmr = v := rfl
@[simp] theorem loadTimer_tmrOn (v : TimerWord) (s : State) : (loadTimer v s).tmrOn = s.tmrOn := rfl
@[simp] theorem loadTimer_tickPending (v : TimerWord) (s : State) : (loadTimer v s).tickPending = s.tickPending := rfl
@[simp] theorem loadTimer_tickIe (v : TimerWord) (s : State) : (loadTimer v s).tickIe = s.tickIe := rfl
@[simp] theorem loadTimer_fault (v : TimerWord) (s : State) : (loadTimer v s).fault = s.fault := rfl
@[simp] theorem loadTimer_inputs (v : TimerWord) (s : State) : (loadTimer v s).inputs = s.inputs := rfl
@[simp] theorem loadTimer_initPreload (v : TimerWord) (s : State) : (loadTimer v s).initPreload = s.initPreload := rfl
@[simp] theorem loadTimer_handlerReload (v : TimerWord) (s : State) : (loadTimer v s).handlerReload = s.handlerReload := rfl
@[simp] theorem loadTimer_draws (v : TimerWord) (s : State) : (loadTimer v s).draws = s.draws := rfl

/-! ### setPending -/

@[simp] theorem setPending_outputLevel (s : State) : (setPending s).outputLevel = s.outputLevel := rfl
@[simp] theorem setPending_txRequest (s : State) : (setPending s).txRequest = s.txRequest := rfl
@[simp] theorem setPending_payloadByte (s : State) : (setPending s).payloadByte = s.payloadByte := rfl
@[simp] theorem setPending_framePhase (s : State) : (setPending s).framePhase = s.framePhase := rfl
@[simp] theorem setPending_bitIndex (s : State) : (setPending s).bitIndex = s.bitIndex := rfl
@[simp] theorem setPending_halfPhase (s : State) : (setPending s).halfPhase = s.halfPhase := rfl
@[simp] theorem setPending_tmr (s : State) : (setPending s).tmr = s.tmr := rfl
@[simp] theorem setPending_tmrOn (s : State) : (setPending s).tmrOn = s.tmrOn := rfl
@[simp] theorem setPending_tickPending (s : State) : (setPending s).tickPending = true := rfl
@[simp] theorem setPending_tickIe (s : State) : (setPending s).tickIe = s.tickIe := rfl
@[simp] theorem setPending_fault (s : State) : (setPending s).fault = s.fault := rfl
@[simp] theorem setPending_inputs (s : State) : (setPending s).inputs = s.inputs := rfl
@[simp] theorem setPending_initPreload (s : State) : (setPending s).initPreload = s.initPreload := rfl
@[simp] theorem setPending_handlerReload (s : State) : (setPending s).handlerReload = s.handlerReload := rfl
@[simp] theorem setPending_draws (s : State) : (setPending s).draws = s.draws := rfl

/-! ### clearPending -/

@[simp] theorem clearPending_outputLevel (s : State) : (clearPending s).outputLevel = s.outputLevel := rfl
@[simp] theorem clearPending_txRequest (s : State) : (clearPending s).txRequest = s.txRequest := rfl
@[simp] theorem clearPending_payloadByte (s : State) : (clearPending s).payloadByte = s.payloadByte := rfl
@[simp] theorem clearPending_framePhase (s : State) : (clearPending s).framePhase = s.framePhase := rfl
@[simp] theorem clearPending_bitIndex (s : State) : (clearPending s).bitIndex = s.bitIndex := rfl
@[simp] theorem clearPending_halfPhase (s : State) : (clearPending s).halfPhase = s.halfPhase := rfl
@[simp] theorem clearPending_tmr (s : State) : (clearPending s).tmr = s.tmr := rfl
@[simp] theorem clearPending_tmrOn (s : State) : (clearPending s).tmrOn = s.tmrOn := rfl
@[simp] theorem clearPending_tickPending (s : State) : (clearPending s).tickPending = false := rfl
@[simp] theorem clearPending_tickIe (s : State) : (clearPending s).tickIe = s.tickIe := rfl
@[simp] theorem clearPending_fault (s : State) : (clearPending s).fault = s.fault := rfl
@[simp] theorem clearPending_inputs (s : State) : (clearPending s).inputs = s.inputs := rfl
@[simp] theorem clearPending_initPreload (s : State) : (clearPending s).initPreload = s.initPreload := rfl
@[simp] theorem clearPending_handlerReload (s : State) : (clearPending s).handlerReload = s.handlerReload := rfl
@[simp] theorem clearPending_draws (s : State) : (clearPending s).draws = s.draws := rfl

/-! ### setDelivery -/

@[simp] theorem setDelivery_outputLevel (v : Bool) (s : State) : (setDelivery v s).outputLevel = s.outputLevel := rfl
@[simp] theorem setDelivery_txRequest (v : Bool) (s : State) : (setDelivery v s).txRequest = s.txRequest := rfl
@[simp] theorem setDelivery_payloadByte (v : Bool) (s : State) : (setDelivery v s).payloadByte = s.payloadByte := rfl
@[simp] theorem setDelivery_framePhase (v : Bool) (s : State) : (setDelivery v s).framePhase = s.framePhase := rfl
@[simp] theorem setDelivery_bitIndex (v : Bool) (s : State) : (setDelivery v s).bitIndex = s.bitIndex := rfl
@[simp] theorem setDelivery_halfPhase (v : Bool) (s : State) : (setDelivery v s).halfPhase = s.halfPhase := rfl
@[simp] theorem setDelivery_tmr (v : Bool) (s : State) : (setDelivery v s).tmr = s.tmr := rfl
@[simp] theorem setDelivery_tmrOn (v : Bool) (s : State) : (setDelivery v s).tmrOn = s.tmrOn := rfl
@[simp] theorem setDelivery_tickPending (v : Bool) (s : State) : (setDelivery v s).tickPending = s.tickPending := rfl
@[simp] theorem setDelivery_tickIe (v : Bool) (s : State) : (setDelivery v s).tickIe = v := rfl
@[simp] theorem setDelivery_fault (v : Bool) (s : State) : (setDelivery v s).fault = s.fault := rfl
@[simp] theorem setDelivery_inputs (v : Bool) (s : State) : (setDelivery v s).inputs = s.inputs := rfl
@[simp] theorem setDelivery_initPreload (v : Bool) (s : State) : (setDelivery v s).initPreload = s.initPreload := rfl
@[simp] theorem setDelivery_handlerReload (v : Bool) (s : State) : (setDelivery v s).handlerReload = s.handlerReload := rfl
@[simp] theorem setDelivery_draws (v : Bool) (s : State) : (setDelivery v s).draws = s.draws := rfl

/-! ### startTimer -/

@[simp] theorem startTimer_outputLevel (s : State) : (startTimer s).outputLevel = s.outputLevel := rfl
@[simp] theorem startTimer_txRequest (s : State) : (startTimer s).txRequest = s.txRequest := rfl
@[simp] theorem startTimer_payloadByte (s : State) : (startTimer s).payloadByte = s.payloadByte := rfl
@[simp] theorem startTimer_framePhase (s : State) : (startTimer s).framePhase = s.framePhase := rfl
@[simp] theorem startTimer_bitIndex (s : State) : (startTimer s).bitIndex = s.bitIndex := rfl
@[simp] theorem startTimer_halfPhase (s : State) : (startTimer s).halfPhase = s.halfPhase := rfl
@[simp] theorem startTimer_tmr (s : State) : (startTimer s).tmr = s.tmr := rfl
@[simp] theorem startTimer_tmrOn (s : State) : (startTimer s).tmrOn = true := rfl
@[simp] theorem startTimer_tickPending (s : State) : (startTimer s).tickPending = s.tickPending := rfl
@[simp] theorem startTimer_tickIe (s : State) : (startTimer s).tickIe = s.tickIe := rfl
@[simp] theorem startTimer_fault (s : State) : (startTimer s).fault = s.fault := rfl
@[simp] theorem startTimer_inputs (s : State) : (startTimer s).inputs = s.inputs := rfl
@[simp] theorem startTimer_initPreload (s : State) : (startTimer s).initPreload = s.initPreload := rfl
@[simp] theorem startTimer_handlerReload (s : State) : (startTimer s).handlerReload = s.handlerReload := rfl
@[simp] theorem startTimer_draws (s : State) : (startTimer s).draws = s.draws := rfl

/-! ### acceptRequest -/

@[simp] theorem acceptRequest_outputLevel (b : Byte) (s : State) : (acceptRequest b s).outputLevel = s.outputLevel := rfl
@[simp] theorem acceptRequest_txRequest (b : Byte) (s : State) : (acceptRequest b s).txRequest = true := rfl
@[simp] theorem acceptRequest_payloadByte (b : Byte) (s : State) : (acceptRequest b s).payloadByte = b := rfl
@[simp] theorem acceptRequest_framePhase (b : Byte) (s : State) : (acceptRequest b s).framePhase = .sendingPreamble := rfl
@[simp] theorem acceptRequest_bitIndex (b : Byte) (s : State) : (acceptRequest b s).bitIndex = 0#3 := rfl
@[simp] theorem acceptRequest_halfPhase (b : Byte) (s : State) : (acceptRequest b s).halfPhase = .firstHalf := rfl
@[simp] theorem acceptRequest_tmr (b : Byte) (s : State) : (acceptRequest b s).tmr = s.tmr := rfl
@[simp] theorem acceptRequest_tmrOn (b : Byte) (s : State) : (acceptRequest b s).tmrOn = s.tmrOn := rfl
@[simp] theorem acceptRequest_tickPending (b : Byte) (s : State) : (acceptRequest b s).tickPending = s.tickPending := rfl
@[simp] theorem acceptRequest_tickIe (b : Byte) (s : State) : (acceptRequest b s).tickIe = s.tickIe := rfl
@[simp] theorem acceptRequest_fault (b : Byte) (s : State) : (acceptRequest b s).fault = s.fault := rfl
@[simp] theorem acceptRequest_inputs (b : Byte) (s : State) : (acceptRequest b s).inputs = s.inputs := rfl
@[simp] theorem acceptRequest_initPreload (b : Byte) (s : State) : (acceptRequest b s).initPreload = s.initPreload := rfl
@[simp] theorem acceptRequest_handlerReload (b : Byte) (s : State) : (acceptRequest b s).handlerReload = s.handlerReload := rfl
@[simp] theorem acceptRequest_draws (b : Byte) (s : State) : (acceptRequest b s).draws = s.draws := rfl

/-! ### presentInput -/

@[simp] theorem presentInput_outputLevel (inp : CycleInput) (s : State) : (presentInput inp s).outputLevel = s.outputLevel := rfl
@[simp] theorem presentInput_txRequest (inp : CycleInput) (s : State) : (presentInput inp s).txRequest = s.txRequest := rfl
@[simp] theorem presentInput_payloadByte (inp : CycleInput) (s : State) : (presentInput inp s).payloadByte = s.payloadByte := rfl
@[simp] theorem presentInput_framePhase (inp : CycleInput) (s : State) : (presentInput inp s).framePhase = s.framePhase := rfl
@[simp] theorem presentInput_bitIndex (inp : CycleInput) (s : State) : (presentInput inp s).bitIndex = s.bitIndex := rfl
@[simp] theorem presentInput_halfPhase (inp : CycleInput) (s : State) : (presentInput inp s).halfPhase = s.halfPhase := rfl
@[simp] theorem presentInput_tmr (inp : CycleInput) (s : State) : (presentInput inp s).tmr = s.tmr := rfl
@[simp] theorem presentInput_tmrOn (inp : CycleInput) (s : State) : (presentInput inp s).tmrOn = s.tmrOn := rfl
@[simp] theorem presentInput_tickPending (inp : CycleInput) (s : State) : (presentInput inp s).tickPending = s.tickPending := rfl
@[simp] theorem presentInput_tickIe (inp : CycleInput) (s : State) : (presentInput inp s).tickIe = s.tickIe := rfl
@[simp] theorem presentInput_fault (inp : CycleInput) (s : State) : (presentInput inp s).fault = s.fault := rfl
@[simp] theorem presentInput_inputs (inp : CycleInput) (s : State) : (presentInput inp s).inputs = inp :: s.inputs := rfl
@[simp] theorem presentInput_initPreload (inp : CycleInput) (s : State) : (presentInput inp s).initPreload = s.initPreload := rfl
@[simp] theorem presentInput_handlerReload (inp : CycleInput) (s : State) : (presentInput inp s).handlerReload = s.handlerReload := rfl
@[simp] theorem presentInput_draws (inp : CycleInput) (s : State) : (presentInput inp s).draws = s.draws := rfl

/-! ### tickIdle -/

@[simp] theorem tickIdle_outputLevel (s : State) : (tickIdle s).outputLevel = .low := rfl
@[simp] theorem tickIdle_txRequest (s : State) : (tickIdle s).txRequest = s.txRequest := rfl
@[simp] theorem tickIdle_payloadByte (s : State) : (tickIdle s).payloadByte = s.payloadByte := rfl
@[simp] theorem tickIdle_framePhase (s : State) : (tickIdle s).framePhase = s.framePhase := rfl
@[simp] theorem tickIdle_bitIndex (s : State) : (tickIdle s).bitIndex = s.bitIndex := rfl
@[simp] theorem tickIdle_halfPhase (s : State) : (tickIdle s).halfPhase = s.halfPhase := rfl
@[simp] theorem tickIdle_tmr (s : State) : (tickIdle s).tmr = s.tmr := rfl
@[simp] theorem tickIdle_tmrOn (s : State) : (tickIdle s).tmrOn = s.tmrOn := rfl
@[simp] theorem tickIdle_tickPending (s : State) : (tickIdle s).tickPending = s.tickPending := rfl
@[simp] theorem tickIdle_tickIe (s : State) : (tickIdle s).tickIe = s.tickIe := rfl
@[simp] theorem tickIdle_fault (s : State) : (tickIdle s).fault = s.fault := rfl
@[simp] theorem tickIdle_inputs (s : State) : (tickIdle s).inputs = s.inputs := rfl
@[simp] theorem tickIdle_initPreload (s : State) : (tickIdle s).initPreload = s.initPreload := rfl
@[simp] theorem tickIdle_handlerReload (s : State) : (tickIdle s).handlerReload = s.handlerReload := rfl
@[simp] theorem tickIdle_draws (s : State) : (tickIdle s).draws = s.draws := rfl

/-! ### tickFirstHalf -/

@[simp] theorem tickFirstHalf_outputLevel (s : State) : (tickFirstHalf s).outputLevel = (Level.ofBit (dataBit s)).inv := rfl
@[simp] theorem tickFirstHalf_txRequest (s : State) : (tickFirstHalf s).txRequest = s.txRequest := rfl
@[simp] theorem tickFirstHalf_payloadByte (s : State) : (tickFirstHalf s).payloadByte = s.payloadByte := rfl
@[simp] theorem tickFirstHalf_framePhase (s : State) : (tickFirstHalf s).framePhase = s.framePhase := rfl
@[simp] theorem tickFirstHalf_bitIndex (s : State) : (tickFirstHalf s).bitIndex = s.bitIndex := rfl
@[simp] theorem tickFirstHalf_halfPhase (s : State) : (tickFirstHalf s).halfPhase = .secondHalf := rfl
@[simp] theorem tickFirstHalf_tmr (s : State) : (tickFirstHalf s).tmr = s.tmr := rfl
@[simp] theorem tickFirstHalf_tmrOn (s : State) : (tickFirstHalf s).tmrOn = s.tmrOn := rfl
@[simp] theorem tickFirstHalf_tickPending (s : State) : (tickFirstHalf s).tickPending = s.tickPending := rfl
@[simp] theorem tickFirstHalf_tickIe (s : State) : (tickFirstHalf s).tickIe = s.tickIe := rfl
@[simp] theorem tickFirstHalf_fault (s : State) : (tickFirstHalf s).fault = s.fault := rfl
@[simp] theorem tickFirstHalf_inputs (s : State) : (tickFirstHalf s).inputs = s.inputs := rfl
@[simp] theorem tickFirstHalf_initPreload (s : State) : (tickFirstHalf s).initPreload = s.initPreload := rfl
@[simp] theorem tickFirstHalf_handlerReload (s : State) : (tickFirstHalf s).handlerReload = s.handlerReload := rfl
@[simp] theorem tickFirstHalf_draws (s : State) : (tickFirstHalf s).draws = s.draws := rfl

/-! ### endByte -/

@[simp] theorem endByte_outputLevel (s : State) : (endByte s).outputLevel = s.outputLevel := rfl
@[simp] theorem endByte_txRequest (s : State) : (endByte s).txRequest = requestAfterByte s.framePhase := rfl
@[simp] theorem endByte_payloadByte (s : State) : (endByte s).payloadByte = s.payloadByte := rfl
@[simp] theorem endByte_framePhase (s : State) : (endByte s).framePhase = phaseAfterByte s.framePhase := rfl
@[simp] theorem endByte_bitIndex (s : State) : (endByte s).bitIndex = s.bitIndex := rfl
@[simp] theorem endByte_halfPhase (s : State) : (endByte s).halfPhase = s.halfPhase := rfl
@[simp] theorem endByte_tmr (s : State) : (endByte s).tmr = s.tmr := rfl
@[simp] theorem endByte_tmrOn (s : State) : (endByte s).tmrOn = s.tmrOn := rfl
@[simp] theorem endByte_tickPending (s : State) : (endByte s).tickPending = s.tickPending := rfl
@[simp] theorem endByte_tickIe (s : State) : (endByte s).tickIe = s.tickIe := rfl
@[simp] theorem endByte_fault (s : State) : (endByte s).fault = s.fault := rfl
@[simp] theorem endByte_inputs (s : State) : (endByte s).inputs = s.inputs := rfl
@[simp] theorem endByte_initPreload (s : State) : (endByte s).initPreload = s.initPreload := rfl
@[simp] theorem endByte_handlerReload (s : State) : (endByte s).handlerReload = s.handlerReload := rfl
@[simp] theorem endByte_draws (s : State) : (endByte s).draws = s.draws := rfl

/-! ### fireTimer -/

@[simp] theorem fireTimer_outputLevel (s : State) : (fireTimer s).outputLevel = s.outputLevel := rfl
@[simp] theorem fireTimer_txRequest (s : State) : (fireTimer s).txRequest = s.txRequest := rfl
@[simp] theorem fireTimer_payloadByte (s : State) : (fireTimer s).payloadByte = s.payloadByte := rfl
@[simp] theorem fireTimer_framePhase (s : State) : (fireTimer s).framePhase = s.framePhase := rfl
@[simp] theorem fireTimer_bitIndex (s : State) : (fireTimer s).bitIndex = s.bitIndex := rfl
@[simp] theorem fireTimer_halfPhase (s : State) : (fireTimer s).halfPhase = s.halfPhase := rfl
@[simp] theorem fireTimer_tmr (s : State) : (fireTimer s).tmr = 0xFFFF#16 := rfl
@[simp] theorem fireTimer_tmrOn (s : State) : (fireTimer s).tmrOn = s.tmrOn := rfl
@[simp] theorem fireTimer_tickPending (s : State) : (fireTimer s).tickPending = true := rfl
@[simp] theorem fireTimer_tickIe (s : State) : (fireTimer s).tickIe = s.tickIe := rfl
@[simp] theorem fireTimer_fault (s : State) : (fireTimer s).fault = s.fault := rfl
@[simp] theorem fireTimer_inputs (s : State) : (fireTimer s).inputs = s.inputs := rfl
@[simp] theorem fireTimer_initPreload (s : State) : (fireTimer s).initPreload = s.initPreload := rfl
@[simp] theorem fireTimer_handlerReload (s : State) : (fireTimer s).handlerReload = s.handlerReload := rfl
@[simp] theorem fireTimer_draws (s : State) : (fireTimer s).draws = s.draws := rfl

/-! ### reloadTimer -/

@[simp] theorem reloadTimer_outputLevel (s : State) : (reloadTimer s).outputLevel = s.outputLevel := rfl
@[simp] theorem reloadTimer_txRequest (s : State) : (reloadTimer s).txRequest = s.txRequest := rfl
@[simp] theorem reloadTimer_payloadByte (s : State) : (reloadTimer s).payloadByte = s.payloadByte := rfl
@[simp] theorem reloadTimer_framePhase (s : State) : (reloadTimer s).framePhase = s.framePhase := rfl
@[simp] theorem reloadTimer_bitIndex (s : State) : (reloadTimer s).bitIndex = s.bitIndex := rfl
@[simp] theorem reloadTimer_halfPhase (s : State) : (reloadTimer s).halfPhase = s.halfPhase := rfl
@[simp] theorem reloadTimer_tmr (s : State) : (reloadTimer s).tmr = s.handlerReload := rfl
@[simp] theorem reloadTimer_tmrOn (s : State) : (reloadTimer s).tmrOn = s.tmrOn := rfl
@[simp] theorem reloadTimer_tickPending (s : State) : (reloadTimer s).tickPending = s.tickPending := rfl
@[simp] theorem reloadTimer_tickIe (s : State) : (reloadTimer s).tickIe = s.tickIe := rfl
@[simp] theorem reloadTimer_fault (s : State) : (reloadTimer s).fault = s.fault := rfl
@[simp] theorem reloadTimer_inputs (s : State) : (reloadTimer s).inputs = s.inputs := rfl
@[simp] theorem reloadTimer_initPreload (s : State) : (reloadTimer s).initPreload = s.initPreload := rfl
@[simp] theorem reloadTimer_handlerReload (s : State) : (reloadTimer s).handlerReload = s.handlerReload := rfl
@[simp] theorem reloadTimer_draws (s : State) : (reloadTimer s).draws = s.draws := rfl

/-! ### resetState -/

@[simp] theorem resetState_outputLevel (s : State) : (resetState s).outputLevel = .low := rfl
@[simp] theorem resetState_txRequest (s : State) : (resetState s).txRequest = false := rfl
@[simp] theorem resetState_payloadByte (s : State) : (resetState s).payloadByte = Config.resetPayload s.draws := rfl
@[simp] theorem resetState_framePhase (s : State) : (resetState s).framePhase = .sendingPreamble := rfl
@[simp] theorem resetState_bitIndex (s : State) : (resetState s).bitIndex = 0#3 := rfl
@[simp] theorem resetState_halfPhase (s : State) : (resetState s).halfPhase = .firstHalf := rfl
@[simp] theorem resetState_tmr (s : State) : (resetState s).tmr = 0#16 := rfl
@[simp] theorem resetState_tmrOn (s : State) : (resetState s).tmrOn = false := rfl
@[simp] theorem resetState_tickPending (s : State) : (resetState s).tickPending = false := rfl
@[simp] theorem resetState_tickIe (s : State) : (resetState s).tickIe = false := rfl
@[simp] theorem resetState_fault (s : State) : (resetState s).fault = 0#2 := rfl
@[simp] theorem resetState_inputs (s : State) : (resetState s).inputs = s.inputs := rfl
@[simp] theorem resetState_initPreload (s : State) : (resetState s).initPreload = s.initPreload := rfl
@[simp] theorem resetState_handlerReload (s : State) : (resetState s).handlerReload = s.handlerReload := rfl
@[simp] theorem resetState_draws (s : State) : (resetState s).draws = s.draws + 1 := rfl

/-! ### sampleInput -/

@[simp] theorem sampleInput_outputLevel (s : State) : (sampleInput s).outputLevel = s.outputLevel := by
  unfold sampleInput; split <;> rfl
@[simp] theorem sampleInput_txRequest (s : State) : (sampleInput s).txRequest = s.txRequest := by
  unfold sampleInput; split <;> rfl
@[simp] theorem sampleInput_payloadByte (s : State) : (sampleInput s).payloadByte = s.payloadByte := by
  unfold sampleInput; split <;> rfl
@[simp] theorem sampleInput_framePhase (s : State) : (sampleInput s).framePhase = s.framePhase := by
  unfold sampleInput; split <;> rfl
@[simp] theorem sampleInput_bitIndex (s : State) : (sampleInput s).bitIndex = s.bitIndex := by
  unfold sampleInput; split <;> rfl
@[simp] theorem sampleInput_halfPhase (s : State) : (sampleInput s).halfPhase = s.halfPhase := by
  unfold sampleInput; split <;> rfl
@[simp] theorem sampleInput_tmr (s : State) : (sampleInput s).tmr = s.tmr := by
  unfold sampleInput; split <;> rfl
@[simp] theorem sampleInput_tmrOn (s : State) : (sampleInput s).tmrOn = s.tmrOn := by
  unfold sampleInput; split <;> rfl
@[simp] theorem sampleInput_tickPending (s : State) : (sampleInput s).tickPending = s.tickPending := by
  unfold sampleInput; split <;> rfl
@[simp] theorem sampleInput_tickIe (s : State) : (sampleInput s).tickIe = s.tickIe := by
  unfold sampleInput; split <;> rfl
@[simp] theorem sampleInput_fault (s : State) : (sampleInput s).fault = s.fault := by
  unfold sampleInput; split <;> rfl
@[simp] theorem sampleInput_initPreload (s : State) : (sampleInput s).initPreload = s.initPreload := by
  unfold sampleInput; split <;> rfl
@[simp] theorem sampleInput_handlerReload (s : State) : (sampleInput s).handlerReload = s.handlerReload := by
  unfold sampleInput; split <;> rfl
@[simp] theorem sampleInput_inputs (s : State) : (sampleInput s).inputs = s.inputs.tail := by
  unfold sampleInput; split <;> simp_all

/-! ### countTimer -/

@[simp] theorem countTimer_outputLevel (s : State) : (countTimer s).outputLevel = s.outputLevel := by
  unfold countTimer; split <;> rfl
@[simp] theorem countTimer_txRequest (s : State) : (countTimer s).txRequest = s.txRequest := by
  unfold countTimer; split <;> rfl
@[simp] theorem countTimer_payloadByte (s : State) : (countTimer s).payloadByte = s.payloadByte := by
  unfold countTimer; split <;> rfl
@[simp] theorem countTimer_framePhase (s : State) : (countTimer s).framePhase = s.framePhase := by
  unfold countTimer; split <;> rfl
@[simp] theorem countTimer_bitIndex (s : State) : (countTimer s).bitIndex = s.bitIndex := by
  unfold countTimer; split <;> rfl
@[simp] theorem countTimer_halfPhase (s : State) : (countTimer s).halfPhase = s.halfPhase := by
  unfold countTimer; split <;> rfl
@[simp] theorem countTimer_tmrOn (s : State) : (countTimer s).tmrOn = s.tmrOn := by
  unfold countTimer; split <;> rfl
@[simp] theorem countTimer_tickIe (s : State) : (countTimer s).tickIe = s.tickIe := by
  unfold countTimer; split <;> rfl
@[simp] theorem countTimer_fault (s : State) : (countTimer s).fault = s.fault := by
  unfold countTimer; split <;> rfl
@[simp] theorem countTimer_inputs (s : State) : (countTimer s).inputs = s.inputs := by
  unfold countTimer; split <;> rfl
@[simp] theorem countTimer_initPreload (s : State) : (countTimer s).initPreload = s.initPreload := by
  unfold countTimer; split <;> rfl
@[simp] theorem countTimer_handlerReload (s : State) : (countTimer s).handlerReload = s.handlerReload := by
  unfold countTimer; split <;> rfl
@[simp] theorem countTimer_draws (s : State) : (countTimer s).draws = s.draws := by
  unfold countTimer; split <;> rfl

/-! ### tickSecondHalf -/

@[simp] theorem tickSecondHalf_outputLevel (s : State) : (tickSecondHalf s).outputLevel = s.outputLevel.inv := by
  unfold tickSecondHalf; dsimp only; split <;> rfl
@[simp] theorem tickSecondHalf_payloadByte (s : State) : (tickSecondHalf s).payloadByte = s.payloadByte := by
  unfold tickSecondHalf; dsimp only; split <;> rfl
@[simp] theorem tickSecondHalf_bitIndex (s : State) : (tickSecondHalf s).bitIndex = nextBitIndex s.bitIndex := by
  unfold tickSecondHalf; dsimp only; split <;> rfl
@[simp] theorem tickSecondHalf_halfPhase (s : State) : (tickSecondHalf s).halfPhase = .firstHalf := by
  unfold tickSecondHalf; dsimp only; split <;> rfl
@[simp] theorem tickSecondHalf_tmr (s : State) : (tickSecondHalf s).tmr = s.tmr := by
  unfold tickSecondHalf; dsimp only; split <;> rfl
@[simp] theorem tickSecondHalf_tmrOn (s : State) : (tickSecondHalf s).tmrOn = s.tmrOn := by
  unfold tickSecondHalf; dsimp only; split <;> rfl
@[simp] theorem tickSecondHalf_tickPending (s : State) : (tickSecondHalf s).tickPending = s.tickPending := by
  unfold tickSecondHalf; dsimp only; split <;> rfl
@[simp] theorem tickSecondHalf_tickIe (s : State) : (tickSecondHalf s).tickIe = s.tickIe := by
  unfold tickSecondHalf; dsimp only; split <;> rfl
@[simp] theorem tickSecondHalf_fault (s : State) : (tickSecondHalf s).fault = s.fault := by
  unfold tickSecondHalf; dsimp only; split <;> rfl
@[simp] theorem tickSecondHalf_inputs (s : State) : (tickSecondHalf s).inputs = s.inputs := by
  unfold tickSecondHalf; dsimp only; split <;> rfl
@[simp] theorem tickSecondHalf_initPreload (s : State) : (tickSecondHalf s).initPreload = s.initPreload := by
  unfold tickSecondHalf; dsimp only; split <;> rfl
@[simp] theorem tickSecondHalf_handlerReload (s : State) : (tickSecondHalf s).handlerReload = s.handlerReload := by
  unfold tickSecondHalf; dsimp only; split <;> rfl
@[simp] theorem tickSecondHalf_draws (s : State) : (tickSecondHalf s).draws = s.draws := by
  unfold tickSecondHalf; dsimp only; split <;> rfl

/-! ### onTick and serviceTick: what a TICK never writes (R90) -/

@[simp] theorem onTick_payloadByte (s : State) : (onTick s).payloadByte = s.payloadByte := by
  unfold onTick; split
  · split <;> simp
  · rfl
@[simp] theorem onTick_tmr (s : State) : (onTick s).tmr = s.tmr := by
  unfold onTick; split
  · split <;> simp
  · rfl
@[simp] theorem onTick_tmrOn (s : State) : (onTick s).tmrOn = s.tmrOn := by
  unfold onTick; split
  · split <;> simp
  · rfl
@[simp] theorem onTick_tickPending (s : State) : (onTick s).tickPending = s.tickPending := by
  unfold onTick; split
  · split <;> simp
  · rfl
@[simp] theorem onTick_tickIe (s : State) : (onTick s).tickIe = s.tickIe := by
  unfold onTick; split
  · split <;> simp
  · rfl
@[simp] theorem onTick_fault (s : State) : (onTick s).fault = s.fault := by
  unfold onTick; split
  · split <;> simp
  · rfl
@[simp] theorem onTick_inputs (s : State) : (onTick s).inputs = s.inputs := by
  unfold onTick; split
  · split <;> simp
  · rfl
@[simp] theorem onTick_initPreload (s : State) : (onTick s).initPreload = s.initPreload := by
  unfold onTick; split
  · split <;> simp
  · rfl
@[simp] theorem onTick_handlerReload (s : State) : (onTick s).handlerReload = s.handlerReload := by
  unfold onTick; split
  · split <;> simp
  · rfl
@[simp] theorem onTick_draws (s : State) : (onTick s).draws = s.draws := by
  unfold onTick; split
  · split <;> simp
  · rfl
@[simp] theorem serviceTick_payloadByte (s : State) : (serviceTick s).payloadByte = s.payloadByte := by
  simp [serviceTick]
@[simp] theorem serviceTick_tmr (s : State) : (serviceTick s).tmr = s.handlerReload := by
  simp [serviceTick]
@[simp] theorem serviceTick_tmrOn (s : State) : (serviceTick s).tmrOn = s.tmrOn := by
  simp [serviceTick]
@[simp] theorem serviceTick_tickPending (s : State) : (serviceTick s).tickPending = false := by
  simp [serviceTick]
@[simp] theorem serviceTick_tickIe (s : State) : (serviceTick s).tickIe = s.tickIe := by
  simp [serviceTick]
@[simp] theorem serviceTick_fault (s : State) : (serviceTick s).fault = s.fault := by
  simp [serviceTick]
@[simp] theorem serviceTick_inputs (s : State) : (serviceTick s).inputs = s.inputs := by
  simp [serviceTick]
@[simp] theorem serviceTick_initPreload (s : State) : (serviceTick s).initPreload = s.initPreload := by
  simp [serviceTick]
@[simp] theorem serviceTick_handlerReload (s : State) : (serviceTick s).handlerReload = s.handlerReload := by
  simp [serviceTick]
@[simp] theorem serviceTick_draws (s : State) : (serviceTick s).draws = s.draws := by
  simp [serviceTick]

end Sys2Proof.Machine
end

