-- ==== Sys2Proof/Laws/Ops.lean ====
section
/-! SUPPORT. For each shared operation one lemma that says everything it can do, and the pure functions that `exec` and
`step` are the outcomes of. Later proofs cite these and unfold no meaning again. -/
namespace Sys2Proof.Machine
open Sys2Proof

/-! ## exec as a function of states -/

/-- The next state of an operation. -/
def effect : Instr → State → State
  | .nop, s => s
  | .req byte, s => if s.txRequest then raise .busyRequest s else acceptRequest byte s
  | .start, s => startTimer (loadTimer s.initPreload s)
  | .suspend, s => setDelivery false s
  | .resume, s => setDelivery true s
  | .illegal5, s => raise .illegalCommand s
  | .illegal6, s => raise .illegalCommand s
  | .illegal7, s => raise .illegalCommand s
  | .reset, s => resetState s
  | .service, s => serviceTick s
  | .reload, s => reloadTimer s
  | .ack, s => clearPending s
  | .tick, s => onTick s
  | .count, s => countTimer s
  | .fire, s => fireTimer s

/-- Every operation has a next state in every state, and this is it. -/
theorem exec_eq_effect (i : Instr) (s : State) : exec i s = .next (effect i s) := by
  cases i <;> rfl

/-- An operation selected or not. -/
theorem execWhen_eq (due : Bool) (i : Instr) (s : State) :
    execWhen due i s = .next (if due then effect i s else s) := by
  unfold execWhen; split <;> simp [exec_eq_effect]

@[simp] theorem andThen_next (s : State) (f : State → Host.Outcome State Fault Refusal) :
    andThen (.next s) f = f s := rfl

/-! ## step as a function of states -/

/-- The state after SERVICE, if it is due. -/
def afterService (s : State) : State := if serviceDue s then serviceTick s else s

/-- The state after the host command, in a cycle without reset. -/
def afterCommand (inp : CycleInput) (s : State) : State := effect (decodeCommand inp.cmd) (afterService s)

/-- The state after COUNT, if it is due. -/
def afterCount (inp : CycleInput) (s : State) : State :=
  if countDue inp (afterCommand inp s) then countTimer (afterCommand inp s) else afterCommand inp s

/-- The next state of a cycle with given inputs. -/
def cycleEffect (inp : CycleInput) (s : State) : State := if inp.rst then resetState s else afterCount inp s

/-- Every cycle has a next state, and this is it (R118). -/
theorem cycleWith_eq (inp : CycleInput) (s : State) : cycleWith inp s = .next (cycleEffect inp s) := by
  unfold cycleWith cycleEffect
  split
  · rfl
  · simp only [execWhen_eq, exec_eq_effect, andThen_next]
    rfl

/-- The next state of a step. -/
theorem step_eq (s : State) : step s = .next (cycleEffect (nextInput s) (sampleInput s)) :=
  cycleWith_eq _ _

/-! ## The shared operations -/

/-- Everything a TICK can do (R91, R94, R96 to R99). -/
theorem onTick_cases (s : State) :
    (s.txRequest = false ∧ onTick s = tickIdle s) ∨
      (s.txRequest = true ∧ s.halfPhase = .firstHalf ∧ onTick s = tickFirstHalf s) ∨
      (s.txRequest = true ∧ s.halfPhase = .secondHalf ∧ onTick s = tickSecondHalf s) := by
  unfold onTick
  cases h : s.txRequest <;> cases h' : s.halfPhase <;> simp

/-- Everything the second half of a cell can do to the request and the frame phase (R97 to R99). -/
theorem tickSecondHalf_cases (s : State) :
    (s.bitIndex ≠ 7#3 ∧ (tickSecondHalf s).framePhase = s.framePhase ∧ (tickSecondHalf s).txRequest = s.txRequest) ∨
      (s.bitIndex = 7#3 ∧ s.framePhase = .sendingPreamble ∧
        (tickSecondHalf s).framePhase = .sendingPayload ∧ (tickSecondHalf s).txRequest = true) ∨
      (s.bitIndex = 7#3 ∧ s.framePhase = .sendingPayload ∧
        (tickSecondHalf s).framePhase = .sendingPayload ∧ (tickSecondHalf s).txRequest = false) := by
  by_cases h : s.bitIndex = 7#3
  · cases h' : s.framePhase <;>
      simp [tickSecondHalf, byteComplete, endByte, h, h', phaseAfterByte, requestAfterByte]
  · simp [tickSecondHalf, byteComplete, h]

/-- Everything a COUNT can do (R76, R77). -/
theorem countTimer_cases (s : State) :
    (s.tmr = 0#16 ∧ (countTimer s).tmr = 0xFFFF#16 ∧ (countTimer s).tickPending = true) ∨
      (s.tmr ≠ 0#16 ∧ (countTimer s).tmr = s.tmr - 1#16 ∧ (countTimer s).tickPending = s.tickPending) := by
  by_cases h : s.tmr = 0#16 <;> simp [countTimer, h]

/-- Everything the sampling of the inputs can do: the list loses its head, or one draw is made. -/
theorem sampleInput_cases (s : State) :
    (∃ inp rest, s.inputs = inp :: rest ∧ nextInput s = inp ∧ sampleInput s = { s with inputs := rest }) ∨
      (s.inputs = [] ∧ sampleInput s = { s with draws := s.draws + 1 }) := by
  cases h : s.inputs <;> simp [nextInput, sampleInput, h]

/-- A fault bit once set is kept by a raise (R24, R126). -/
theorem setFaultBit_keeps (c : FaultCause) (f : FaultBits) : setFaultBit c f &&& f = f := by
  cases c <;> revert f <;> decide

/-- Raising a fault twice equals once: the bit is sticky. -/
theorem raise_raise (c : FaultCause) (s : State) : raise c (raise c s) = raise c s := by
  simp [raise, setFaultBit, BitVec.or_assoc]

/-! ## Levels -/

@[simp] theorem Level.inv_inv (l : Level) : l.inv.inv = l := by cases l <;> rfl

@[simp] theorem Level.inv_ofBit (b : Bool) : (Level.ofBit b).inv = Level.ofBit (!b) := by cases b <;> rfl

@[simp] theorem Level.bit_ofBit (b : Bool) : (Level.ofBit b).bit = b := by cases b <;> rfl

theorem Level.inv_ne (l : Level) : l.inv ≠ l := by cases l <;> decide

/-! ## Runs -/

/-- A run of one more cycle. -/
theorem runCycles_succ (n : Nat) (s : State) :
    runCycles (n + 1) s = runCycles n (cycleEffect (nextInput s) (sampleInput s)) := by
  simp [runCycles, step_eq]

theorem inputsDuring_succ (n : Nat) (s : State) :
    inputsDuring (n + 1) s = nextInput s :: inputsDuring n (cycleEffect (nextInput s) (sampleInput s)) := by
  simp [inputsDuring, step_eq]

theorem ticksDuring_succ (n : Nat) (s : State) :
    ticksDuring (n + 1) s =
      (if tickHappens s then 1 else 0) + ticksDuring n (cycleEffect (nextInput s) (sampleInput s)) := by
  simp [ticksDuring, step_eq]

end Sys2Proof.Machine
end

