-- ==== Sys2Proof/Laws/LineCode.lean ====
section
/-! SUPPORT. The half-cells of a frame, the advance of the place in the frame, and what keeps the encoder: the lemmas the
statements about frames and about the invariant rest on. -/
namespace Sys2Proof.Machine
open Sys2Proof

/-! ## The line code -/

/-- The bits of a word with one more cell at its end. -/
theorem append_cellOf_getLsbD {n : Nat} (b : Bool) (x : BitVec n) (k : Nat) :
    (x ++ cellOf b).getLsbD k = if k = 0 then b else if k = 1 then !b else x.getLsbD (k - 2) := by
  rw [BitVec.getLsbD_append]
  rcases k with _ | _ | k
  · cases b <;> rfl
  · cases b <;> rfl
  · simp

/-- The two half-cells of a cell. -/
theorem cellOf_getLsbD (b : Bool) (k : Nat) :
    (cellOf b).getLsbD k = if k = 0 then b else if k = 1 then !b else false := by
  rcases k with _ | _ | k
  · cases b <;> rfl
  · cases b <;> rfl
  · simp

/-- The two half-cells of each bit of a byte. -/
theorem manchester_getLsbD (byte : Byte) (i : Nat) (hi : i < 8) :
    (manchester byte).getLsbD (2 * i) = byte.getLsbD i ∧
      (manchester byte).getLsbD (2 * i + 1) = !byte.getLsbD i := by
  unfold manchester
  interval_cases i <;> simp only [append_cellOf_getLsbD, cellOf_getLsbD] <;> simp

/-- Half-cells 0 to 15 are LOW, HIGH eight times. -/
theorem halfCell_of_lt (payload : Byte) (p : Nat) (hp : p < 16) :
    halfCell payload p = if p % 2 = 0 then .low else .high := by
  have pre : manchester Config.preamble = 0x5555#16 := by decide
  unfold halfCell frameCells
  rw [BitVec.getLsbD_append, pre, if_neg (by omega)]
  interval_cases p <;> rfl

/-- Half-cells 16 to 31 carry the payload, bit 7 first. -/
theorem halfCell_of_ge (payload : Byte) (p : Nat) (h1 : 16 ≤ p) (hp : p < 32) :
    halfCell payload p =
      Level.ofBit (if p % 2 = 0 then !payload.getLsbD (7 - (p - 16) / 2) else payload.getLsbD (7 - (p - 16) / 2)) := by
  unfold halfCell frameCells
  rw [BitVec.getLsbD_append, if_pos (by omega)]
  have cells := manchester_getLsbD payload ((31 - p) / 2) (by omega)
  rw [show 7 - (p - 16) / 2 = (31 - p) / 2 by omega]
  rcases Nat.mod_two_eq_zero_or_one p with h | h
  · rw [if_pos h, ← cells.2]; congr 2; omega
  · rw [if_neg (by omega), ← cells.1]; congr 2; omega

/-- The byte a frame phase sends. -/
def byteOf (payload : Byte) : FramePhase → Byte
  | .sendingPreamble => Config.preamble
  | .sendingPayload => payload

theorem dataBit_eq (s : State) : dataBit s = bitToSend (byteOf s.payloadByte s.framePhase) s.bitIndex := by
  unfold dataBit activeByte; cases s.framePhase <;> rfl

/-- The first half-cell of a place is the complement of its data bit. -/
theorem halfCell_firstHalf (payload : Byte) (phase : FramePhase) (index : BitIndex) :
    halfCell payload (framePosition phase index .firstHalf).toNat =
      Level.ofBit (!bitToSend (byteOf payload phase) index) := by
  rcases opcode_cases index with h | h | h | h | h | h | h | h <;> subst h <;> cases phase <;>
    first
    | (rw [halfCell_of_lt _ _ (by decide), byteOf]; decide)
    | (rw [halfCell_of_ge _ _ (by decide) (by decide)]; rfl)

/-- The second half-cell of a place is its data bit. -/
theorem halfCell_secondHalf (payload : Byte) (phase : FramePhase) (index : BitIndex) :
    halfCell payload (framePosition phase index .secondHalf).toNat =
      Level.ofBit (bitToSend (byteOf payload phase) index) := by
  rcases opcode_cases index with h | h | h | h | h | h | h | h <;> subst h <;> cases phase <;>
    first
    | (rw [halfCell_of_lt _ _ (by decide), byteOf]; decide)
    | (rw [halfCell_of_ge _ _ (by decide) (by decide)]; rfl)

/-! ## Places -/

/-- A second half follows its first half and is no first place. -/
theorem framePosition_secondHalf (phase : FramePhase) (index : BitIndex) :
    (framePosition phase index .secondHalf).toNat - 1 = (framePosition phase index .firstHalf).toNat ∧
      framePosition phase index .secondHalf ≠ 0#5 := by
  cases phase <;> revert index <;> decide

theorem pos_succ_toNat (p : Pos) (h : p ≠ 31#5) : (p + 1#5).toNat = p.toNat + 1 := by
  revert p; decide

@[simp] theorem acceptRequest_pos (b : Byte) (s : State) : (acceptRequest b s).pos = 0#5 := by
  simp [State.pos, framePosition, FramePhase.bits, HalfPhase.bits]

/-- What an active TICK does to the place and the request (R97 to R99). -/
theorem onTick_pos (s : State) (h : s.txRequest = true) :
    (s.pos ≠ 31#5 → (onTick s).pos = s.pos + 1#5 ∧ (onTick s).txRequest = true) ∧
      (s.pos = 31#5 → (onTick s).pos = 16#5 ∧ (onTick s).txRequest = false) := by
  obtain ⟨_, tx, _, phase, index, half, _⟩ := s
  simp only at h
  subst h
  simp only [onTick, tickFirstHalf, tickSecondHalf, endByte, byteComplete, State.pos]
  cases phase <;> cases half <;> simp only [↓reduceIte]
  all_goals
    rcases opcode_cases index with h | h | h | h | h | h | h | h <;> subst h <;>
      simp [framePosition, FramePhase.bits, HalfPhase.bits, nextBitIndex, phaseAfterByte, requestAfterByte]

/-- What an active TICK puts on the line when the line and the place agree: the half-cell of the place. -/
theorem onTick_outputLevel (s : State) (htx : s.txRequest = true) (h : ActiveInv s) :
    (onTick s).outputLevel = halfCell s.payloadByte s.pos.toNat := by
  cases hp : s.halfPhase with
  | firstHalf =>
    simp only [State.pos, hp, halfCell_firstHalf]
    simp [onTick, htx, hp, dataBit_eq]
  | secondHalf =>
    simp only [ActiveInv, State.pos, hp, halfCell_secondHalf, framePosition_secondHalf, halfCell_firstHalf,
      false_or] at h ⊢
    simp [onTick, htx, hp, h]

/-! ## What keeps the encoder -/

/-- The second state has the encoder of the first. -/
structure SameEncoder (s t : State) : Prop where
  outputLevel : t.outputLevel = s.outputLevel
  txRequest : t.txRequest = s.txRequest
  payloadByte : t.payloadByte = s.payloadByte
  framePhase : t.framePhase = s.framePhase
  bitIndex : t.bitIndex = s.bitIndex
  halfPhase : t.halfPhase = s.halfPhase

theorem SameEncoder.trans {r s t : State} (h : SameEncoder r s) (k : SameEncoder s t) : SameEncoder r t :=
  ⟨k.outputLevel.trans h.outputLevel, k.txRequest.trans h.txRequest, k.payloadByte.trans h.payloadByte,
    k.framePhase.trans h.framePhase, k.bitIndex.trans h.bitIndex, k.halfPhase.trans h.halfPhase⟩

theorem SameEncoder.pos {s t : State} (h : SameEncoder s t) : t.pos = s.pos := by
  simp [State.pos, h.framePhase, h.bitIndex, h.halfPhase]

theorem sampleInput_sameEncoder (s : State) : SameEncoder s (sampleInput s) := by
  constructor <;> simp

/-- An operation that is neither RESET nor contains a TICK keeps the encoder or is an accepted REQ. -/
theorem effect_encoder_cases (i : Instr) (hr : i ≠ .reset) (ht : isTick i = false) (s : State) :
    SameEncoder s (effect i s) ∨
      ∃ b, i = .req b ∧ s.txRequest = false ∧ effect i s = acceptRequest b s := by
  cases i with
  | req b =>
    cases h : s.txRequest with
    | false => right; simp [effect, h]
    | true => left; constructor <;> simp [effect, h]
  | reset => exact absurd rfl hr
  | tick => simp [isTick] at ht
  | service => simp [isTick] at ht
  | _ => left; constructor <;> simp [effect]

/-- A command word selects neither RESET nor a TICK. -/
theorem decodeCommand_not_event (cmd : CommandWord) :
    decodeCommand cmd ≠ .reset ∧ isTick (decodeCommand cmd) = false := by
  have := decodeCommand_isCommand cmd
  cases h : decodeCommand cmd <;> simp_all [Instr.isCommand, isTick]

/-- A cycle without reset leaves the encoder as its SERVICE leaves it, or accepts a REQ then. -/
theorem cycleEffect_encoder_cases (inp : CycleInput) (hr : inp.rst = false) (s : State) :
    SameEncoder (afterService s) (cycleEffect inp s) ∨
      ∃ b, decodeCommand inp.cmd = .req b ∧ (afterService s).txRequest = false ∧
        SameEncoder (acceptRequest b (afterService s)) (cycleEffect inp s) := by
  have hc : SameEncoder (afterCommand inp s) (cycleEffect inp s) := by
    simp only [cycleEffect, hr, afterCount]
    constructor <;> simp <;> split <;> simp
  rcases effect_encoder_cases (decodeCommand inp.cmd) (decodeCommand_not_event _).1 (decodeCommand_not_event _).2
    (afterService s) with h | ⟨b, h1, h2, h3⟩
  · exact .inl (h.trans hc)
  · exact .inr ⟨b, h1, h2, h3 ▸ hc⟩

/-- SERVICE does to the encoder what TICK does. -/
theorem serviceTick_sameEncoder (s : State) : SameEncoder (onTick s) (serviceTick s) := by
  constructor <;> simp only [serviceTick, onTick, tickSecondHalf, tickFirstHalf, endByte] <;>
    (cases hx : s.txRequest <;> cases hy : s.halfPhase <;> simp [hx, hy, dataBit, activeByte]; try (split <;> simp))

end Sys2Proof.Machine
end

