-- ==== Sys2Proof/Laws/PerInstr.lean ====
section
/-! SUPPORT. Statements made of every operation as syntax: its code word lies in its row of the opcode table
(spec/30_encoding.md R58, R62; the parts have the row of their whole). -/
namespace Sys2Proof.Laws

/-- The row of an operation: its code word masked is the row's match. -/
def InRow (c : Code) (format : Nat) (mask mtch : Nat) : Prop :=
  match c with
  | .command cmd => format = 11 ∧ cmd &&& BitVec.ofNat 11 mask = BitVec.ofNat 11 mtch
  | .event ev => format = 3 ∧ ev &&& BitVec.ofNat 3 mask = BitVec.ofNat 3 mtch

namespace TableRow

/-- The code word of `i` lies in its row: its format's width, the row's mask and match (R58, R62). -/
def Statement : Instr → Prop
  | .nop => InRow (encode .nop) 11 0x700 0x000
  | .req byte => InRow (encode (.req byte)) 11 0x700 0x100
  | .start => InRow (encode .start) 11 0x700 0x200
  | .suspend => InRow (encode .suspend) 11 0x700 0x300
  | .resume => InRow (encode .resume) 11 0x700 0x400
  | .illegal5 => InRow (encode .illegal5) 11 0x700 0x500
  | .illegal6 => InRow (encode .illegal6) 11 0x700 0x600
  | .illegal7 => InRow (encode .illegal7) 11 0x700 0x700
  | .reset => InRow (encode .reset) 3 0b100 0b100
  | .service => InRow (encode .service) 3 0b110 0b010
  | .reload => InRow (encode .reload) 3 0b110 0b010
  | .ack => InRow (encode .ack) 3 0b110 0b010
  | .tick => InRow (encode .tick) 3 0b110 0b010
  | .count => InRow (encode .count) 3 0b101 0b001
  | .fire => InRow (encode .fire) 3 0b101 0b001

theorem nop : Statement .nop := ⟨rfl, rfl⟩
theorem req (byte : Byte) : Statement (.req byte) :=
  ⟨rfl, commandOf_mask 0b001#3 byte⟩
theorem start : Statement .start := ⟨rfl, rfl⟩
theorem suspend : Statement .suspend := ⟨rfl, rfl⟩
theorem resume : Statement .resume := ⟨rfl, rfl⟩
theorem illegal5 : Statement .illegal5 := ⟨rfl, rfl⟩
theorem illegal6 : Statement .illegal6 := ⟨rfl, rfl⟩
theorem illegal7 : Statement .illegal7 := ⟨rfl, rfl⟩
theorem reset : Statement .reset := ⟨rfl, rfl⟩
theorem service : Statement .service := ⟨rfl, rfl⟩
theorem reload : Statement .reload := ⟨rfl, rfl⟩
theorem ack : Statement .ack := ⟨rfl, rfl⟩
theorem tick : Statement .tick := ⟨rfl, rfl⟩
theorem count : Statement .count := ⟨rfl, rfl⟩
theorem fire : Statement .fire := ⟨rfl, rfl⟩

end TableRow

end Sys2Proof.Laws
end

