-- ==== Sys2Proof/Tests/Slice0.lean ====
section
/-! SUPPORT. The model's own tests: the words and vectors of spec/95_test_vectors.md (their ids are named), the refusals of
WellFormed, and one witness theorem for each statement with hypotheses: a concrete state that meets them. -/
namespace Sys2Proof.Tests
open Sys2Proof Sys2Proof.Machine

/-! ## Small states -/

/-- The state after reset with the draw taken as 00 and the parameters INIT_PRELOAD = 4, HANDLER_RELOAD = 5. -/
def idle0 : State where
  outputLevel := .low
  txRequest := false
  payloadByte := 0x00#8
  framePhase := .sendingPreamble
  bitIndex := 0#3
  halfPhase := .firstHalf
  tmr := 0x0000#16
  tmrOn := false
  tickPending := false
  tickIe := false
  fault := 0b00#2
  inputs := []
  initPreload := 4#16
  handlerReload := 5#16
  draws := 1

/-- The notation `(out, txr, pay, fp, bi, hp)` of 95_test_vectors.md. -/
def enc (out : Bool) (txr : Bool) (pay : Byte) (fp : Bool) (bi : BitIndex) (hp : Bool) : State :=
  { idle0 with
    outputLevel := Level.ofBit out
    txRequest := txr
    payloadByte := pay
    framePhase := if fp then .sendingPayload else .sendingPreamble
    bitIndex := bi
    halfPhase := if hp then .secondHalf else .firstHalf }

/-- The notation `(tmr, on, pend, ie)` of 95_test_vectors.md, over an encoder state. -/
def tim (tmr : TimerWord) (on pend ie : Bool) (s : State) : State :=
  { s with tmr := tmr, tmrOn := on, tickPending := pend, tickIe := ie }

/-- The next state of an outcome (the given one where there is none). -/
def nextOr (s : State) : Host.Outcome State Fault Refusal → State
  | .next t => t
  | .fault _ => s
  | .refused _ => s

/-- `n` cycles with `cnt_en` = 1 and the given command, after which nothing is listed. -/
def listed (n : Nat) (cmd : CommandWord) (s : State) : State :=
  { s with inputs := List.replicate n { rst := false, cntEn := true, cmd := cmd } }

/-! ## WellFormed refuses the parts (R56) -/

theorem test_reload_ill_formed : Instr.WellFormed .reload = false := by decide
theorem test_ack_ill_formed : Instr.WellFormed .ack = false := by decide
theorem test_tick_ill_formed : Instr.WellFormed .tick = false := by decide
theorem test_fire_ill_formed : Instr.WellFormed .fire = false := by decide
theorem test_req_well_formed : Instr.WellFormed (.req 0xFF#8) = true := by decide

/-! ## Decoding: the words K1 to K15 and the vectors of R62, written bit by bit -/

theorem test_decode_nop : decodeCommand 0b00000000000#11 = .nop ∧ decodeCommand 0b00011111111#11 = .nop := by decide
theorem test_decode_req : decodeCommand 0b00110110010#11 = .req 0b10110010#8 := by decide
theorem test_decode_start : decodeCommand 0b01000000000#11 = .start ∧ decodeCommand 0b01010101011#11 = .start := by
  decide
theorem test_decode_suspend :
    decodeCommand 0b01100000000#11 = .suspend ∧ decodeCommand 0b01111111111#11 = .suspend := by decide
theorem test_decode_resume :
    decodeCommand 0b10000000000#11 = .resume ∧ decodeCommand 0b10001010101#11 = .resume := by decide
theorem test_decode_illegal5 : decodeCommand 0b10110100111#11 = .illegal5 := by decide
theorem test_decode_illegal6 : decodeCommand 0b11000000000#11 = .illegal6 := by decide
theorem test_decode_illegal7 : decodeCommand 0b11111111111#11 = .illegal7 := by decide
theorem test_decode_reset : decodeEvent 0b100#3 = [.reset] ∧ decodeEvent 0b111#3 = [.reset] := by decide
theorem test_decode_service : decodeEvent 0b010#3 = [.service] := by decide
theorem test_decode_count : decodeEvent 0b001#3 = [.count] := by decide
theorem test_decode_both : decodeEvent 0b011#3 = [.service, .count] := by decide
theorem test_decode_no_event : decodeNumber 3 0b000 = .error .noEvent := by decide
theorem test_decode_too_wide : decodeNumber 11 0x800 = .error .notACommandWord := by decide
theorem test_decode_too_wide_event : decodeNumber 3 8 = .error .notAnEventVector := by decide
theorem test_encode_req : encode (.req 0xB2#8) = .command 0x1B2#11 := by decide
theorem test_encode_parts : encode .reload = .event 0b010#3 ∧ encode .ack = .event 0b010#3 ∧
    encode .tick = .event 0b010#3 ∧ encode .fire = .event 0b001#3 := by decide

/-! ## Operations: the vectors V, T, H, Z -/

theorem test_V2_idle_forcing : exec .tick (enc true false 0x5A#8 true 5#3 true)
    = .next (enc false false 0x5A#8 true 5#3 true) := rfl
theorem test_V5_last_half_cell_high : exec .tick (enc false true 0x01#8 true 7#3 true)
    = .next (enc true false 0x01#8 true 0#3 false) := rfl
theorem test_V7_end_of_preamble : exec .tick (enc false true 0xB2#8 false 7#3 true)
    = .next (enc true true 0xB2#8 true 0#3 false) := rfl
theorem test_V8_zero_bit : exec .tick (enc true true 0xB2#8 true 1#3 false)
    = .next (enc true true 0xB2#8 true 1#3 true) := rfl
theorem test_V11_inverts_the_line : exec .tick (enc true true 0xFF#8 false 3#3 true)
    = .next (enc false true 0xFF#8 false 4#3 false) := rfl
theorem test_V16_bit_zero : exec .tick (enc false true 0x00#8 true 7#3 false)
    = .next (enc true true 0x00#8 true 7#3 true) := rfl
theorem test_T2_reaching_zero : exec .count (tim 0x0001#16 true false true idle0)
    = .next (tim 0x0000#16 true false true idle0) := rfl
theorem test_T3_fires_and_wraps : exec .count (tim 0x0000#16 true false true idle0)
    = .next (tim 0xFFFF#16 true true true idle0) := rfl
theorem test_fire : exec .fire (tim 0x0000#16 true true false idle0)
    = .next (tim 0xFFFF#16 true true false idle0) := rfl
theorem test_T9_reload : exec .reload (tim 0xFFF3#16 true true true idle0)
    = .next (tim 0x0005#16 true true true idle0) := rfl
theorem test_T10_ack : exec .ack (tim 0xFFF3#16 true true true idle0)
    = .next (tim 0xFFF3#16 true false true idle0) := rfl
theorem test_T12_service : exec .service (tim 0xFFFF#16 true true true (enc false true 0xB2#8 false 0#3 false))
    = .next (tim 0x0005#16 true false true (enc false true 0xB2#8 false 0#3 true)) := rfl
theorem test_nop : exec .nop (enc true true 0xA5#8 false 2#3 true) = .next (enc true true 0xA5#8 false 2#3 true) := rfl
theorem test_H2_req_accepted : exec (.req 0x80#8) (enc true false 0x01#8 true 0#3 false)
    = .next (enc true true 0x80#8 false 0#3 false) := rfl
theorem test_H6_req_rejected : exec (.req 0x3C#8) { enc false true 0xA5#8 false 2#3 true with fault := 0b10#2 }
    = .next { enc false true 0xA5#8 false 2#3 true with fault := 0b11#2 } := rfl
theorem test_H8_start_while_running : exec .start (tim 0x0123#16 true true false idle0)
    = .next (tim 0x0004#16 true true false idle0) := rfl
theorem test_H9_suspend : exec .suspend (tim 0x0007#16 true false true idle0)
    = .next (tim 0x0007#16 true false false idle0) := rfl
theorem test_H11_resume : exec .resume (tim 0xFFF7#16 true true false idle0)
    = .next (tim 0xFFF7#16 true true true idle0) := rfl
theorem test_H13_illegal5 : exec .illegal5 idle0 = .next { idle0 with fault := 0b10#2 } := rfl
theorem test_illegal6 : exec .illegal6 idle0 = .next { idle0 with fault := 0b10#2 } := rfl
theorem test_H14_illegal7 : exec .illegal7 { idle0 with fault := 0b01#2 } = .next { idle0 with fault := 0b11#2 } := rfl
theorem test_Z2_reset :
    exec .reset { tim 0xFFFF#16 true true true (enc false true 0x7E#8 false 1#3 true) with fault := 0b10#2 }
      = .next { idle0 with payloadByte := Config.resetPayload 1, draws := 2 } := rfl

/-! ## Whole cycles: the vectors S -/

theorem test_S2_service_and_rejected_req :
    cycleWith { rst := false, cntEn := true, cmd := 0x13C#11 }
      { tim 0xFFFF#16 true true true (enc true true 0xA5#8 false 2#3 false) with handlerReload := 1#16 }
    = .next { tim 0x0000#16 true false true (enc false true 0xA5#8 false 2#3 true) with
        handlerReload := 1#16, fault := 0b01#2 } := rfl
theorem test_S3_suspend_own_cycle :
    cycleWith { rst := false, cntEn := true, cmd := 0x300#11 }
      { tim 0xFFFF#16 true true true (enc false true 0xB2#8 false 0#3 false) with handlerReload := 3#16 }
    = .next { tim 0x0002#16 true false false (enc false true 0xB2#8 false 0#3 true) with handlerReload := 3#16 } := rfl
theorem test_S6_three_writers_of_tmr :
    cycleWith { rst := false, cntEn := true, cmd := 0x200#11 }
      { tim 0xFFFF#16 true true true idle0 with handlerReload := 9#16 }
    = .next { tim 0x0003#16 true false true idle0 with handlerReload := 9#16 } := rfl
theorem test_S7_illegal_leaves_service :
    cycleWith { rst := false, cntEn := true, cmd := 0x5A7#11 }
      { tim 0xFFFF#16 true true true (enc false true 0x7E#8 false 0#3 true) with handlerReload := 1#16 }
    = .next { tim 0x0000#16 true false true (enc true true 0x7E#8 false 1#3 false) with
        handlerReload := 1#16, fault := 0b10#2 } := rfl
theorem test_S10_nothing_before_boot :
    cycleWith { rst := false, cntEn := true, cmd := 0x000#11 } idle0 = .next idle0 := rfl

/-! ## Placing an operation as the first one after reset -/

theorem test_place_req : step (State.reset.withFetchWord 11 0x1B2) = exec (.req 0xB2#8) State.reset := rfl
theorem test_place_start : step (State.reset.withFetchWord 16 0x200) = exec .start State.reset := rfl
theorem test_place_service : step (State.reset.withFetchWord 3 0b010)
    = exec .service { State.reset with tickPending := true, tickIe := true } := rfl
theorem test_place_count : step (State.reset.withFetchWord 3 0b001)
    = exec .count { State.reset with tmrOn := true } := rfl
theorem test_place_reset : step (State.reset.withFetchWord 8 0b100) = exec .reset State.reset := rfl

/-! ## The line code and the notation -/

theorem test_byte_expansion : manchester 0xA5#8 = 0x6699#16 ∧ manchester 0x80#8 = 0x6AAA#16 ∧
    manchester 0x01#8 = 0xAAA9#16 ∧ frameCells 0xB2#8 = 0x555565A6#32 := by decide
theorem test_bit_extraction : (List.range 8).map (fun i => bitToSend 0xB2#8 (BitVec.ofNat 3 i))
    = [true, false, true, true, false, false, true, false] := by decide
theorem test_number_bases : numberOf ['1', '7', '8'] = some 178 ∧ numberOf ['0', 'x', 'B', '2'] = some 178 ∧
    numberOf ['0', 'b', '1', '0', '1', '1', '0', '0', '1', '0'] = some 178 := by decide
theorem test_parse_send_hold :
    parseStream ['S', 'E', 'N', 'D', ' ', '0', 'x', 'B', '2', ' ', '!', 'h', 'o', 'l', 'd', ' ', ';', 'x']
      = some [{ line := .send 0xB2#8, hold := true }] := by decide
theorem test_parse_word : parseStream ['.', 'w', 'o', 'r', 'd', ' ', '0', 'x', '5', 'A', '7', '\n', 'N', 'O', 'P']
      = some [{ line := .word 0x5A7#11, hold := false }, { line := .nop, hold := false }] := by decide
theorem test_parse_open_atomic : parseStream ['A', 'T', 'O', 'M', 'I', 'C', ' ', openBrace] = none := by decide
theorem test_assemble_init : assemble [{ line := .init, hold := false }] =
    [.cycle { rst := false, cntEn := true, cmd := 0x200#11 }, .cycle { rst := false, cntEn := true, cmd := 0x400#11 }] := by
  decide

/-! ## Witnesses: each statement's hypotheses can be met -/

theorem witness_CommandWordSelectsOneRow :
    0x0FF#11 &&& 0x700#11 = 0x000#11 ∧ 0x1B2#11 &&& 0x700#11 = 0x100#11 ∧ 0x2AB#11 &&& 0x700#11 = 0x200#11 ∧
    0x3FF#11 &&& 0x700#11 = 0x300#11 ∧ 0x455#11 &&& 0x700#11 = 0x400#11 ∧ 0x5A7#11 &&& 0x700#11 = 0x500#11 ∧
    0x600#11 &&& 0x700#11 = 0x600#11 ∧ 0x7FF#11 &&& 0x700#11 = 0x700#11 := by decide
theorem witness_OperandBitsIgnoredButByReq :
    0x0FF#11 &&& 0x700#11 = 0x000#11 &&& 0x700#11 ∧ 0x0FF#11 &&& 0x700#11 ≠ 0x100#11 ∧ 0x0FF#11 ≠ 0x000#11 := by decide
theorem witness_DecodeOfEncode : Instr.WellFormed (.req 0xB2#8) = true ∧ Instr.WellFormed .service = true ∧
    decodeCommand 0x1B2#11 = .req 0xB2#8 ∧ 0x7FF#11 &&& 0x700#11 ≠ 0x100#11 := by decide

/-- A machine in mid-frame with a tick due, HANDLER_RELOAD = 0 and a reset listed for the next cycle. -/
def due : State :=
  { tim 0xFFFF#16 true true true (enc false true 0x7E#8 false 1#3 true) with
    handlerReload := 0#16, inputs := [{ rst := true, cntEn := true, cmd := 0x1FF#11 }] }

theorem witness_EventVectorSelectsTheCycle :
    ∃ s1 s2, (if due.tickPending = true ∧ due.tickIe = true then exec .service due else .next due) = .next s1 ∧
      exec (decodeCommand 0x13C#11) s1 = .next s2 := ⟨_, _, rfl, rfl⟩
theorem witness_EventVectorSelectsTheCycle_not_due :
    ∃ s1 s2, (if idle0.tickPending = true ∧ idle0.tickIe = true then exec .service idle0 else .next idle0) = .next s1 ∧
      exec (decodeCommand 0x13C#11) s1 = .next s2 := ⟨_, _, rfl, rfl⟩
theorem witness_CycleIsServiceCommandCount :
    (⟨true, true, 0x1FF#11⟩ : CycleInput).rst = true ∧ (⟨false, true, 0x1FF#11⟩ : CycleInput).rst = false := by decide
theorem witness_StepRunsDecodedCommand :
    due.inputs = ⟨true, true, 0x1FF#11⟩ :: [] ∧ (nextInput due).rst = true ∧
    (nextInput (listed 1 0x1B2#11 idle0)).rst = false ∧
    decode (.command (nextInput (listed 1 0x1B2#11 idle0)).cmd) = .ok (.req 0xB2#8) := ⟨rfl, rfl, rfl, rfl⟩

/-- RESET ends a transmission in mid-frame and clears a fault bit; so the second part's premises can be met. -/
theorem witness_ResetOperation :
    ∃ t, exec .reset { due with fault := 0b10#2 } = .next t ∧ due.txRequest = true ∧ t.txRequest = false ∧
      due.pos ≠ 31#5 ∧ t.fault &&& 0b10#2 ≠ 0b10#2 := ⟨_, rfl, rfl, rfl, by decide, by decide⟩
theorem witness_ResetOperation_selected :
    (0b111#3 : EventVector).getLsbD 2 = true ∧ (⟨true, true, 0x1FF#11⟩ : CycleInput).rst = true := by decide
theorem witness_AcceptedRequestWritesFiveFields : idle0.txRequest = false := rfl
theorem witness_RejectedRequestReportsOnly : due.txRequest = true := rfl
theorem witness_StartLoadsAndRuns :
    ∃ t, exec .reset due = .next t ∧ due.tmrOn = true ∧ t.tmrOn = false := ⟨_, rfl, rfl, rfl⟩
theorem witness_SuspendStopsDelivery : idle0.tickIe = false ∧
    ∃ t, exec .count due = .next t ∧ isTick .count = false ∧ Instr.count ≠ .reset := ⟨rfl, _, rfl, rfl, by decide⟩
theorem witness_ResumeEnablesDelivery : due.tickIe = true ∧ idle0.tickIe = false := ⟨rfl, rfl⟩
theorem witness_ReservedOpcodesReportOnly : (0b101#3 = 0b101#3 ∨ 0b101#3 = 0b110#3 ∨ 0b101#3 = 0b111#3) ∧
    (0b111#3 = 0b101#3 ∨ 0b111#3 = 0b110#3 ∨ 0b111#3 = 0b111#3) := by decide
theorem witness_CountDecrementsOrFires :
    idle0.tmr = 0#16 ∧ due.tmr ≠ 0#16 ∧ (idle0.tmrOn = false ∨ true = false) ∧ serviceDue idle0 = false ∧
    ((tim 3#16 true false true idle0).tmrOn = true ∧ true = true) ∧
    ((tim 3#16 true false true idle0).tmrOn = false ∨ false = false) ∧
    serviceDue (tim 3#16 true false true idle0) = false := by decide
theorem witness_FireSetsPendingAndWraps : idle0.tmr = 0#16 ∧ due.tickPending = true ∧ 0xFFFF < 0x10000 := by decide
theorem witness_ValuePlusOneCountsToTheFiring :
    2 ≤ (tim 3#16 true false true idle0).tmr.toNat ∧ 4 = (tim 3#16 true false true idle0).tmr.toNat + 1 := by decide
theorem witness_ReloadLoadsHandlerReload :
    serviceDue due = true ∧ due.tmrOn = true ∧ due.handlerReload = 0#16 ∧ decodeCommand 0x000#11 ≠ .start := by decide
theorem witness_AckClearsPending :
    ∃ s1 s2, (⟨false, true, 0x000#11⟩ : CycleInput).rst = false ∧ serviceDue due = true ∧
      exec .service due = .next s1 ∧ exec (decodeCommand 0x000#11) s1 = .next s2 ∧ s2.tmrOn = true ∧
      s2.tmr = 0#16 := ⟨_, _, rfl, rfl, rfl, rfl, rfl, rfl⟩
theorem witness_ServiceIsReloadAckTick :
    List.Perm [Instr.tick, Instr.reload, Instr.ack] [Instr.reload, Instr.ack, Instr.tick] := by decide
theorem witness_FiringWhilePendingIsLost :
    (tim 0#16 true true false idle0).tickPending = true ∧ (tim 0#16 true true false idle0).tmr = 0#16 ∧
    due.tickIe = true ∧
    ∃ s1 s2, (if due.tickPending = true ∧ due.tickIe = true then exec .service due else .next due) = .next s1 ∧
      exec (decodeCommand 0x000#11) s1 = .next s2 := ⟨rfl, rfl, rfl, _, _, rfl, rfl⟩

/-- A machine with a tick due, HANDLER_RELOAD = 1 and two cycles of NOP with `cnt_en` = 1 listed. -/
def periodic : State := { listed 2 0x000#11 due with handlerReload := 1#16 }

theorem witness_ServicesAreReloadPlusOneCyclesApart :
    serviceDue periodic = true ∧ periodic.tmrOn = true ∧
    NoReset (inputsDuring (periodic.handlerReload.toNat + 1) periodic) ∧
    AlwaysCounts (inputsDuring (periodic.handlerReload.toNat + 1) periodic) ∧
    NeverCommands .start (inputsDuring (periodic.handlerReload.toNat + 1) periodic) ∧
    NeverCommands .suspend (inputsDuring (periodic.handlerReload.toNat + 1) periodic) ∧
    1 ≤ periodic.handlerReload.toNat + 1 := by
  unfold NoReset AlwaysCounts NeverCommands; decide

/-- A machine with delivery on whose host presents START, then NOP; INIT_PRELOAD = 1. -/
def booting : State :=
  { tim 0#16 false false true idle0 with
    initPreload := 1#16
    inputs := [{ rst := false, cntEn := true, cmd := 0x200#11 }, { rst := false, cntEn := true, cmd := 0x000#11 }] }

theorem witness_FirstServiceAfterStart :
    booting.tickPending = false ∧ decodeCommand (nextInput booting).cmd = .start ∧
    NoReset (inputsDuring (booting.initPreload.toNat + 1) booting) ∧
    AlwaysCounts (inputsDuring (booting.initPreload.toNat + 1) booting) ∧
    NeverCommands .start (inputsDuring (booting.initPreload.toNat + 1) booting).tail ∧
    booting.tickIe = true ∧ NeverCommands .suspend (inputsDuring (booting.initPreload.toNat + 1) booting) ∧
    1 ≤ booting.initPreload.toNat + 1 := by
  unfold NoReset AlwaysCounts NeverCommands; decide

/-- A machine right after reset whose host presents INIT, that is START then RESUME (R69, R152); INIT_PRELOAD = 1, so
RESUME is in the firing cycle. -/
def bootingInOrder : State :=
  { idle0 with
    initPreload := 1#16
    inputs := [{ rst := false, cntEn := true, cmd := 0x200#11 }, { rst := false, cntEn := true, cmd := 0x400#11 }] }

theorem witness_FirstServiceAfterStart_boot_order :
    bootingInOrder.tickPending = false ∧ bootingInOrder.tickIe = false ∧
    decodeCommand (nextInput bootingInOrder).cmd = .start ∧
    NoReset (inputsDuring (bootingInOrder.initPreload.toNat + 1) bootingInOrder) ∧
    AlwaysCounts (inputsDuring (bootingInOrder.initPreload.toNat + 1) bootingInOrder) ∧
    NeverCommands .start (inputsDuring (bootingInOrder.initPreload.toNat + 1) bootingInOrder).tail ∧
    (inputsDuring (bootingInOrder.initPreload.toNat + 1) bootingInOrder)[1]? = some ⟨false, true, 0x400#11⟩ ∧
    decodeCommand 0x400#11 = .resume ∧
    NeverCommands .suspend ((inputsDuring (bootingInOrder.initPreload.toNat + 1) bootingInOrder).drop 2) ∧
    1 ≤ bootingInOrder.initPreload.toNat + 1 := by
  unfold NoReset AlwaysCounts NeverCommands; decide

/-- The TICK that finds the last half-cell. -/
def lastHalf : State := enc false true 0x01#8 true 7#3 true

theorem witness_TickTouchesTheEncoderOnly :
    (∃ t, exec .tick lastHalf = .next t ∧ lastHalf.txRequest = true ∧ t.txRequest = false) ∧
    ∃ t t', exec .tick due = .next t ∧ exec .tick { due with tmr := 7#16 } = .next t' ∧ due.tmr ≠ 7#16 :=
  ⟨⟨_, rfl, rfl, rfl⟩, _, _, rfl, rfl, by decide⟩
theorem witness_IdleTickForcesLow : (enc true false 0x5A#8 true 5#3 true).txRequest = false := rfl
theorem witness_FirstHalfSendsTheComplement :
    (enc true true 0xB2#8 false 1#3 false).txRequest = true ∧ (enc true true 0xB2#8 false 1#3 false).halfPhase = .firstHalf ∧
    (enc true true 0xB2#8 false 1#3 false).framePhase = .sendingPreamble ∧
    (enc true true 0xB2#8 true 7#3 false).txRequest = true ∧ (enc true true 0xB2#8 true 7#3 false).halfPhase = .firstHalf ∧
    (enc true true 0xB2#8 true 7#3 false).framePhase = .sendingPayload := ⟨rfl, rfl, rfl, rfl, rfl, rfl⟩
theorem witness_SecondHalfInvertsAndAdvances :
    (due.txRequest = true ∧ due.halfPhase = .secondHalf ∧ due.bitIndex ≠ 7#3) ∧
    ((enc false true 0xB2#8 false 7#3 true).txRequest = true ∧
      (enc false true 0xB2#8 false 7#3 true).halfPhase = .secondHalf ∧
      (enc false true 0xB2#8 false 7#3 true).bitIndex = 7#3 ∧
      (enc false true 0xB2#8 false 7#3 true).framePhase = .sendingPreamble) ∧
    (lastHalf.txRequest = true ∧ lastHalf.halfPhase = .secondHalf ∧ lastHalf.bitIndex = 7#3 ∧
      lastHalf.framePhase = .sendingPayload ∧ lastHalf.Inv) := by
  refine ⟨by decide, by decide, rfl, rfl, rfl, rfl, ?_⟩
  unfold State.Inv IdleInv ActiveInv; decide
theorem witness_TickAdvancesThePosition :
    due.txRequest = true ∧ due.pos.getLsbD 0 = true ∧ due.pos ≠ 31#5 ∧
    (enc true true 0xB2#8 true 1#3 false).txRequest = true ∧ (enc true true 0xB2#8 true 1#3 false).pos.getLsbD 0 = false ∧
    lastHalf.txRequest = true ∧ lastHalf.pos = 31#5 := by decide
theorem witness_SummaryTransitions :
    idle0.summary = .idle ∧ due.summary = .preamble ∧ due.pos.toNat ≤ 14 ∧
    (enc false true 0xB2#8 false 7#3 true).summary = .preamble ∧ (enc false true 0xB2#8 false 7#3 true).pos = 15#5 ∧
    (enc true true 0xB2#8 true 7#3 false).summary = .payload ∧ 16 ≤ (enc true true 0xB2#8 true 7#3 false).pos.toNat ∧
    (enc true true 0xB2#8 true 7#3 false).pos.toNat ≤ 30 ∧ lastHalf.summary = .payload ∧ lastHalf.pos = 31#5 ∧
    (∃ t, exec .service lastHalf = .next t ∧ lastHalf.summary ≠ .idle ∧ t.summary = .idle) ∧
    ∃ t, exec .reset due = .next t ∧ due.summary ≠ .idle ∧ t.summary = .idle :=
  ⟨rfl, rfl, by decide, rfl, by decide, rfl, by decide, by decide, rfl, by decide,
    ⟨_, rfl, by decide, rfl⟩, _, rfl, by decide, rfl⟩
theorem witness_BitIsSentAsComplementThenBit :
    (enc true true 0xB2#8 true 7#3 false).txRequest = true ∧ (enc true true 0xB2#8 true 7#3 false).halfPhase = .firstHalf ∧
    ∀ i ∈ [Instr.count, Instr.req 0x00#8, Instr.suspend], isTick i = false ∧ i ≠ .reset := ⟨rfl, rfl, by decide⟩

/-- A machine with a tick due in every cycle (HANDLER_RELOAD = 0), idle, with `n` cycles of NOP listed. -/
def ticking (n : Nat) : State :=
  { listed n 0x000#11 (tim 0xFFFF#16 true true true idle0) with handlerReload := 0#16 }

/-- `ticking` after a REQ 0x01 was accepted. -/
def sending (n : Nat) : State := nextOr (ticking n) (exec (.req 0x01#8) (ticking n))

theorem witness_FrameTakesThirtyTwoTicks :
    (ticking 32).txRequest = false ∧ exec (.req 0x01#8) (ticking 32) = .next (sending 32) ∧
    NoReset (inputsDuring 31 (sending 32)) ∧ ticksDuring 31 (sending 32) = 31 ∧
    tickHappens (nextOr (sending 32) (runCycles 31 (sending 32))) = true := by
  refine ⟨rfl, rfl, ?_, by decide, by decide⟩
  unfold NoReset; decide
theorem witness_LineShowsTheFrame :
    (ticking 32).txRequest = false ∧ exec (.req 0x01#8) (ticking 32) = .next (sending 32) ∧
    NoReset (inputsDuring 32 (sending 32)) ∧ ticksDuring 1 (sending 32) = 0 + 1 ∧ ticksDuring 16 (sending 32) = 15 + 1 ∧
    ticksDuring 17 (sending 32) = 16 + 1 ∧ ticksDuring 32 (sending 32) = 31 + 1 := by
  refine ⟨rfl, rfl, ?_, by decide, by decide, by decide, by decide⟩
  unfold NoReset; decide
theorem witness_RequestWaitsForTheTick :
    (ticking 1).txRequest = false ∧ NoReset (inputsDuring 0 (sending 1)) ∧ ticksDuring 0 (sending 1) = 0 ∧
    tickHappens (sending 1) = true ∧
    NoReset (inputsDuring 1 { sending 1 with tickIe := false }) ∧ ticksDuring 1 { sending 1 with tickIe := false } = 0 := by
  unfold NoReset; decide
theorem witness_PreambleIgnoresThePayload :
    (idle0.txRequest = false ∨ idle0.framePhase = .sendingPreamble) ∧
    (due.txRequest = false ∨ due.framePhase = .sendingPreamble) := by decide
theorem witness_PayloadBeforeRequestIsUnobservable :
    (listed 1 0x1B2#11 idle0).txRequest = false ∧
    ∃ t, runCycles 1 (listed 1 0x1B2#11 idle0) = .next t ∧ t.txRequest = true := ⟨rfl, _, rfl, rfl⟩
theorem witness_StepKeepsTheInvariant :
    lastHalf.Inv ∧ (listed 1 0x1B2#11 idle0).Inv ∧ (∃ t, step (listed 1 0x1B2#11 idle0) = .next t) ∧
    (∃ t, exec .count { lastHalf with tmrOn := true } = .next t) ∧ { lastHalf with tmrOn := true }.Inv ∧
    idle0.txRequest = false ∧ idle0.Inv := by
  refine ⟨?_, ?_, ⟨_, rfl⟩, ⟨_, rfl⟩, ?_, rfl, ?_⟩ <;> unfold State.Inv IdleInv ActiveInv <;> decide
theorem witness_ElementsAreWrittenByTheirOperations :
    ∃ t u, exec .tick lastHalf = .next t ∧ t.outputLevel ≠ lastHalf.outputLevel ∧ t.bitIndex ≠ lastHalf.bitIndex ∧
      t.halfPhase ≠ lastHalf.halfPhase ∧ t.txRequest ≠ lastHalf.txRequest ∧
      exec (.req 0x80#8) (enc true false 0x01#8 true 0#3 false) = .next u ∧ u.payloadByte ≠ 0x01#8 ∧
      u.framePhase ≠ .sendingPayload :=
  ⟨_, _, rfl, by decide, by decide, by decide, by decide, rfl, by decide, by decide⟩
theorem witness_ElementsAreWrittenByTheirOperations_tick_source :
    ∃ t u v w x, exec .count idle0 = .next t ∧ t.tmr ≠ idle0.tmr ∧ t.tickPending ≠ idle0.tickPending ∧
      exec .start idle0 = .next u ∧ u.tmrOn ≠ idle0.tmrOn ∧ exec .resume idle0 = .next v ∧ v.tickIe ≠ idle0.tickIe ∧
      exec (.req 0x00#8) due = .next w ∧ w.fault.getLsbD 0 ≠ due.fault.getLsbD 0 ∧
      exec .illegal6 due = .next x ∧ x.fault.getLsbD 1 ≠ due.fault.getLsbD 1 :=
  ⟨_, _, _, _, _, rfl, by decide, by decide, rfl, by decide, rfl, by decide, rfl, by decide, rfl, by decide⟩
theorem witness_RequestFlagLifetime :
    ∃ t u, exec (.req 0x00#8) idle0 = .next t ∧ idle0.txRequest = false ∧ t.txRequest = true ∧
      exec .service lastHalf = .next u ∧ lastHalf.txRequest = true ∧ u.txRequest = false :=
  ⟨_, _, rfl, rfl, rfl, rfl, rfl, rfl⟩
theorem witness_FaultBitsAreSticky :
    (∃ t, exec .illegal5 { due with fault := 0b01#2 } = .next t) ∧ Instr.illegal5 ≠ .reset ∧
    (nextInput (listed 1 0x13C#11 lastHalf)).rst = false ∧ ∃ t, step (listed 1 0x13C#11 lastHalf) = .next t :=
  ⟨⟨_, rfl⟩, by decide, rfl, _, rfl⟩
theorem witness_OnlyTwoFaultCauses :
    (∃ t, exec .count due = .next t) ∧ Instr.count ≠ .reset ∧ isReq .count = false ∧ isIllegal .count = false ∧
    (∃ t, exec (.req 0x00#8) idle0 = .next t) ∧ isReq (.req 0x00#8) = true ∧ idle0.txRequest = false :=
  ⟨⟨_, rfl⟩, by decide, rfl, rfl, ⟨_, rfl⟩, rfl, rfl⟩

/-- A machine in mid-frame with a tick pending and delivery suspended, with two cycles of REQ listed. -/
def suspended : State := { listed 2 0x13C#11 due with tickIe := false }

theorem witness_SuspendedRunHasNoTick :
    suspended.tickIe = false ∧ suspended.txRequest = true ∧ suspended.tickPending = true ∧
    NoReset (inputsDuring 2 suspended) ∧ NeverCommands .resume (inputsDuring 2 suspended) := by
  unfold NoReset NeverCommands; decide
theorem witness_NothingMovesBeforeBoot :
    idle0.tmrOn = false ∧ idle0.tickPending = false ∧ NoReset (inputsDuring 2 (listed 2 0x400#11 idle0)) ∧
    NeverCommands .start (inputsDuring 2 (listed 2 0x400#11 idle0)) ∧
    (∀ byte, NeverCommands (.req byte) (inputsDuring 2 (listed 2 0x400#11 idle0))) ∧
    (listed 2 0x400#11 (enc false true 0xB2#8 false 0#3 false)).txRequest = true := by
  refine ⟨rfl, rfl, ?_, ?_, ?_, rfl⟩
  · unfold NoReset; decide
  · unfold NeverCommands; decide
  · intro byte inp h
    have : decodeCommand inp.cmd = .resume := by
      revert inp; decide
    rw [this]; exact fun e => by cases e
theorem witness_IdleStaysIdle :
    (ticking 2).txRequest = false ∧ NoReset (inputsDuring 2 (ticking 2)) ∧
    (∀ byte, NeverCommands (.req byte) (inputsDuring 2 (ticking 2))) ∧ 1 ≤ ticksDuring 2 (ticking 2) ∧
    ticksDuring 0 (ticking 2) = 0 := by
  refine ⟨rfl, ?_, ?_, by decide, rfl⟩
  · unfold NoReset; decide
  · intro byte inp h
    have : decodeCommand inp.cmd = .nop := by
      revert inp; decide
    rw [this]; exact fun e => by cases e
theorem witness_RequestInTheLastTickCycleIsAccepted :
    serviceDue (tim 0xFFFF#16 true true true lastHalf) = true ∧ lastHalf.txRequest = true ∧ lastHalf.pos = 31#5 := by
  decide
theorem witness_PseudoInstructionsExpand : idle0.txRequest = false ∧ due.txRequest = true := ⟨rfl, rfl⟩
theorem witness_ByteExpansion : (7 : Nat) < 8 ∧ manchester 0xB2#8 = manchester 0xB2#8 := ⟨by decide, rfl⟩

end Sys2Proof.Tests
end

section
/-! The family of spec/10_state.md: how `tx_request` and `fault` change under an operation and under a cycle, and the
state after reset. -/
namespace Sys2Proof.Machine
open Sys2Proof

/-! ### The request flag (R12) -/

/-- A TICK never starts a request, and ends one at `pos` = 31 alone (R91, R99). -/
theorem onTick_txRequest (s : State) : (onTick s).txRequest = (s.txRequest && s.pos != 31#5) := by
  cases htx : s.txRequest with
  | false => simp [onTick, htx]
  | true =>
    obtain ⟨running, last⟩ := onTick_pos s htx
    by_cases hpos : s.pos = 31#5
    · simp [hpos, (last hpos).2]
    · simp [hpos, (running hpos).2]

/-- SERVICE does to the request what its TICK does (R81). -/
theorem serviceTick_txRequest (s : State) : (serviceTick s).txRequest = (s.txRequest && s.pos != 31#5) :=
  (serviceTick_sameEncoder s).txRequest.trans (onTick_txRequest s)

/-- An operation that contains a TICK does that TICK to the request (R81, R90). -/
theorem effect_txRequest_of_isTick {i : Instr} (hi : isTick i = true) (s : State) :
    (effect i s).txRequest = (s.txRequest && s.pos != 31#5) := by
  obtain rfl | rfl : i = .tick ∨ i = .service := by simpa [isTick] using hi
  · exact onTick_txRequest s
  · exact serviceTick_txRequest s

/-- Everything an operation can do to the request: RESET clears it, a TICK may end it, a REQ that found none sets it,
any other operation keeps it. -/
theorem effect_txRequest_cases (i : Instr) (s : State) :
    (i = .reset ∧ (effect i s).txRequest = false) ∨
      (isTick i = true ∧ (effect i s).txRequest = (s.txRequest && s.pos != 31#5)) ∨
      ((∃ byte, i = .req byte) ∧ s.txRequest = false ∧ (effect i s).txRequest = true) ∨
      (effect i s).txRequest = s.txRequest := by
  by_cases hr : i = .reset
  · subst hr; exact .inl ⟨rfl, rfl⟩
  cases ht : isTick i with
  | true => exact .inr (.inl ⟨rfl, effect_txRequest_of_isTick ht s⟩)
  | false =>
    rcases effect_encoder_cases i hr ht s with same | ⟨byte, hi, hidle, heff⟩
    · exact .inr (.inr (.inr same.txRequest))
    · exact .inr (.inr (.inl ⟨⟨byte, hi⟩, hidle, by rw [heff, acceptRequest_txRequest]⟩))

/-- Only a REQ makes the request 1. -/
theorem req_of_txRequest_rises {i : Instr} {s : State} (h0 : s.txRequest = false)
    (h1 : (effect i s).txRequest = true) : ∃ byte, i = .req byte := by
  rcases effect_txRequest_cases i s with ⟨-, h⟩ | ⟨-, h⟩ | ⟨hreq, -, -⟩ | h
  · simp [h] at h1
  · simp [h, h0] at h1
  · exact hreq
  · simp [h, h0] at h1

/-- Only RESET and the TICK at `pos` = 31 make the request 0. -/
theorem reset_or_lastTick_of_txRequest_falls {i : Instr} {s : State} (h1 : s.txRequest = true)
    (h0 : (effect i s).txRequest = false) : i = .reset ∨ (i = .tick ∨ i = .service) ∧ s.pos = 31#5 := by
  rcases effect_txRequest_cases i s with ⟨hr, -⟩ | ⟨ht, h⟩ | ⟨-, hidle, -⟩ | h
  · exact .inl hr
  · exact .inr ⟨by simpa [isTick] using ht, by simpa [h, h1] using h0⟩
  · simp [hidle] at h1
  · simp [h, h1] at h0

/-- Settles O45: the cases of what an operation can do to the request. -/
theorem requestFlagLifetime : Obligations.RequestFlagLifetime := by
  refine ⟨fun i s t hexec => ?_, fun _ => rfl, rfl⟩
  cases (exec_eq_effect i s).symm.trans hexec
  exact ⟨req_of_txRequest_rises, reset_or_lastTick_of_txRequest_falls⟩

/-! ### The fault register (R24) -/

/-- Raising BusyRequest sets bit 0 and keeps bit 1 (R125). -/
theorem setFaultBit_busyRequest_bits (f : FaultBits) :
    (setFaultBit .busyRequest f).getLsbD 0 = true ∧ (setFaultBit .busyRequest f).getLsbD 1 = f.getLsbD 1 := by
  simp [setFaultBit, FaultCause.mask]

/-- Raising IllegalCommand keeps bit 0 and sets bit 1 (R125). -/
theorem setFaultBit_illegalCommand_bits (f : FaultBits) :
    (setFaultBit .illegalCommand f).getLsbD 0 = f.getLsbD 0 ∧ (setFaultBit .illegalCommand f).getLsbD 1 = true := by
  simp [setFaultBit, FaultCause.mask]

/-- Everything an operation but RESET can do to the fault register: a REQ that finds a transmission raises BusyRequest, a
reserved opcode raises IllegalCommand, any other operation keeps the register (R125, R129). -/
theorem effect_fault_cases {i : Instr} (hr : i ≠ .reset) (s : State) :
    ((isReq i && s.txRequest) = true ∧ isIllegal i = false ∧ (effect i s).fault = setFaultBit .busyRequest s.fault) ∨
      ((isReq i && s.txRequest) = false ∧ isIllegal i = true ∧
        (effect i s).fault = setFaultBit .illegalCommand s.fault) ∨
      ((isReq i && s.txRequest) = false ∧ isIllegal i = false ∧ (effect i s).fault = s.fault) := by
  cases i with
  | req byte => cases htx : s.txRequest <;> simp [effect, htx, isReq, isIllegal]
  | illegal5 | illegal6 | illegal7 => exact .inr (.inl ⟨rfl, rfl, rfl⟩)
  | reset => exact absurd rfl hr
  | _ => exact .inr (.inr ⟨rfl, rfl, by simp [effect]⟩)

/-- The two fault bits after an operation but RESET. -/
theorem effect_fault_bits {i : Instr} (hr : i ≠ .reset) (s : State) :
    (effect i s).fault.getLsbD 0 = (s.fault.getLsbD 0 || (isReq i && s.txRequest)) ∧
      (effect i s).fault.getLsbD 1 = (s.fault.getLsbD 1 || isIllegal i) := by
  rcases effect_fault_cases hr s with ⟨hb, hi, hf⟩ | ⟨hb, hi, hf⟩ | ⟨hb, hi, hf⟩ <;> rw [hb, hi, hf]
  · simpa using setFaultBit_busyRequest_bits s.fault
  · simpa using setFaultBit_illegalCommand_bits s.fault
  · simp

/-- No operation but RESET clears a fault bit. -/
theorem effect_keeps_faults {i : Instr} (hr : i ≠ .reset) (s : State) :
    (effect i s).fault &&& s.fault = s.fault := by
  rcases effect_fault_cases hr s with ⟨-, -, hf⟩ | ⟨-, -, hf⟩ | ⟨-, -, hf⟩ <;> rw [hf]
  · exact setFaultBit_keeps _ _
  · exact setFaultBit_keeps _ _
  · exact BitVec.and_self

@[simp] theorem afterService_fault (s : State) : (afterService s).fault = s.fault := by
  unfold afterService; split <;> simp

/-- In a cycle without reset the host command alone writes the fault register (R125). -/
theorem cycleEffect_fault {inp : CycleInput} (hr : inp.rst = false) (s : State) :
    (cycleEffect inp s).fault = (afterCommand inp s).fault := by
  simp only [cycleEffect, hr, afterCount, Bool.false_eq_true, if_false]
  split
  · exact countTimer_fault _
  · rfl

/-- A cycle without reset clears no fault bit. -/
theorem cycleEffect_keeps_faults {inp : CycleInput} (hr : inp.rst = false) (s : State) :
    (cycleEffect inp s).fault &&& s.fault = s.fault := by
  rw [cycleEffect_fault hr, afterCommand]
  simpa using effect_keeps_faults (decodeCommand_not_event inp.cmd).1 (afterService s)

/-- Settles O46: the cases of what an operation can do to the fault register, carried to a cycle by its one command. -/
theorem faultBitsAreSticky : Obligations.FaultBitsAreSticky := by
  refine ⟨fun i s t hi hexec => ?_, fun s t hrst hstep => ?_, fun _ => rfl, rfl⟩
  · cases (exec_eq_effect i s).symm.trans hexec
    exact effect_fault_bits hi s
  · cases (step_eq s).symm.trans hstep
    simpa using cycleEffect_keeps_faults hrst (sampleInput s)

/-! ### The state after reset (R30) -/

/-- Settles O12: each clause is the field of `State.reset`. -/
theorem stateAfterReset : Obligations.ResetState :=
  ⟨rfl, rfl, rfl, rfl, rfl, rfl, rfl, rfl, rfl, rfl⟩

end Sys2Proof.Machine
end

section
/-! The family of spec/30_encoding.md: what the fields of a command word select (R58, R59, R61), what the event vector
selects (R62), and the half-cells on the line from a request on (R63, R104). -/
namespace Sys2Proof.Machine
open Sys2Proof

/-! ### The opcode rows (R58, R59, R61) -/

/-- Masking a command word with 0x700 is clearing its operand (R58). -/
theorem mask_eq_commandOf (cmd : CommandWord) : cmd &&& 0x700#11 = commandOf (opcodeOf cmd) 0#8 := by
  rw [← commandOf_mask (opcodeOf cmd) (operandOf cmd), commandOf_fields]

/-- A command word lies in the row of `op` when `op` is its opcode (R58). -/
theorem mask_eq_commandOf_iff (cmd : CommandWord) (op : BitVec 3) :
    cmd &&& 0x700#11 = commandOf op 0#8 ↔ opcodeOf cmd = op := by
  rw [mask_eq_commandOf]
  constructor
  · intro h
    simpa using congrArg opcodeOf h
  · rintro rfl
    rfl

/-- The eight matches of the rows (R58). -/
theorem commandOf_zero_mem (op : BitVec 3) :
    commandOf op 0#8 ∈ [0x000#11, 0x100#11, 0x200#11, 0x300#11, 0x400#11, 0x500#11, 0x600#11, 0x700#11] := by
  revert op; decide

/-- The operand is the low eight bits of the word (R59). -/
theorem operandOf_getLsbD (cmd : CommandWord) {k : Nat} (hk : k < 8) :
    (operandOf cmd).getLsbD k = cmd.getLsbD k := by
  simp [operandOf, hk]

/-- In the row of `op` the decoder sees `op` and the operand. -/
theorem decodeCommand_of_mask {cmd : CommandWord} {op : BitVec 3} (h : cmd &&& 0x700#11 = commandOf op 0#8) :
    decodeCommand cmd = decodeCommand (commandOf op (operandOf cmd)) := by
  rw [← (mask_eq_commandOf_iff cmd op).mp h, commandOf_fields]

/-- Of two words with one opcode only REQ's can decode differently (R61). -/
theorem decodeCommand_congr_opcodeOf {cmd cmd' : CommandWord} (hsame : opcodeOf cmd = opcodeOf cmd')
    (hreq : opcodeOf cmd ≠ 1#3) : decodeCommand cmd = decodeCommand cmd' := by
  unfold decodeCommand
  rw [← hsame]
  rcases opcode_cases (opcodeOf cmd) with h | h | h | h | h | h | h | h
  case inr.inl => exact absurd h hreq
  all_goals rw [h]; rfl

/-- Settles O1: the mask is the opcode, and each row's opcode decodes to its operation. -/
theorem commandWordSelectsOneRow : Obligations.CommandWordSelectsOneRow := by
  intro cmd
  refine ⟨mask_eq_commandOf cmd ▸ commandOf_zero_mem _, fun h => ?_, fun h => ?_, fun h => ?_, fun h => ?_,
    fun h => ?_, fun h => ?_, fun h => ?_, fun h => ?_⟩
  · exact (decodeCommand_of_mask (op := 0#3) h).trans (decodeCommand_commandOf _ _)
  · exact ⟨operandOf cmd, (decodeCommand_of_mask (op := 1#3) h).trans (decodeCommand_commandOf _ _),
      fun _ hk => operandOf_getLsbD cmd hk⟩
  · exact (decodeCommand_of_mask (op := 2#3) h).trans (decodeCommand_commandOf _ _)
  · exact (decodeCommand_of_mask (op := 3#3) h).trans (decodeCommand_commandOf _ _)
  · exact (decodeCommand_of_mask (op := 4#3) h).trans (decodeCommand_commandOf _ _)
  · exact (decodeCommand_of_mask (op := 5#3) h).trans (decodeCommand_commandOf _ _)
  · exact (decodeCommand_of_mask (op := 6#3) h).trans (decodeCommand_commandOf _ _)
  · exact (decodeCommand_of_mask (op := 7#3) h).trans (decodeCommand_commandOf _ _)

/-- Settles O2: the masks are the opcodes. -/
theorem operandBitsIgnoredButByReq : Obligations.OperandBitsIgnoredButByReq := by
  refine ⟨fun cmd cmd' hsame hreq => ?_, rfl, rfl, rfl, rfl⟩
  have hop : opcodeOf cmd = opcodeOf cmd' := (mask_eq_commandOf_iff cmd _).mp (hsame.trans (mask_eq_commandOf cmd'))
  exact decodeCommand_congr_opcodeOf hop fun h => hreq ((mask_eq_commandOf_iff cmd 1#3).mpr h)

/-! ### The event vector (R62) -/

/-- RESET is selected by bit 2. -/
theorem evReset_eq (ev : EventVector) : evReset ev = ev.getLsbD 2 := by
  revert ev; decide

/-- SERVICE is selected by bit 1, unless RESET suppresses it. -/
theorem evService_eq (ev : EventVector) : evService ev = (!ev.getLsbD 2 && ev.getLsbD 1) := by
  revert ev; decide

/-- COUNT is selected by bit 0, unless RESET suppresses it. -/
theorem evCount_eq (ev : EventVector) : evCount ev = (!ev.getLsbD 2 && ev.getLsbD 0) := by
  revert ev; decide

/-- The operations of an event vector, bit by bit. -/
theorem decodeEvent_eq (ev : EventVector) : decodeEvent ev =
    if ev.getLsbD 2 then [.reset]
    else (if ev.getLsbD 1 then [.service] else []) ++ (if ev.getLsbD 0 then [.count] else []) := by
  simp only [decodeEvent, evReset_eq, evService_eq, evCount_eq]
  cases ev.getLsbD 2 <;> simp

/-- The three conditions the bits of a cycle's event vector are. -/
theorem eventVector_getLsbD (inp : CycleInput) (s0 s2 : State) :
    (eventVector inp s0 s2).getLsbD 2 = inp.rst ∧
      (eventVector inp s0 s2).getLsbD 1 = (!inp.rst && serviceDue s0) ∧
      (eventVector inp s0 s2).getLsbD 0 = (!inp.rst && countDue inp s2) := by
  simp only [eventVector, BitVec.getLsbD_append, BitVec.getLsbD_ofBool]
  simp

/-- The operations of a cycle: RESET alone, or the host command between the two that may be due. -/
theorem cycleOps_eventVector (inp : CycleInput) (s0 s2 : State) :
    cycleOps (eventVector inp s0 s2) inp.cmd =
      if inp.rst then [.reset]
      else (if serviceDue s0 then [.service] else []) ++ [decodeCommand inp.cmd] ++
        (if countDue inp s2 then [.count] else []) := by
  obtain ⟨hrst, hsvc, hcnt⟩ := eventVector_getLsbD inp s0 s2
  simp only [cycleOps, evReset_eq, evService_eq, evCount_eq, hrst, hsvc, hcnt]
  cases inp.rst <;> simp

@[simp] theorem runOps_singleton (i : Instr) (s : State) : runOps [i] s = exec i s := by
  simp [runOps, exec_eq_effect]

/-- Operations one after the other, in two parts. -/
theorem runOps_append (ops ops' : List Instr) (s : State) :
    runOps (ops ++ ops') s = andThen (runOps ops s) (runOps ops') := by
  induction ops generalizing s with
  | nil => rfl
  | cons i ops ih => simp [runOps, exec_eq_effect, ih]

/-- An operation in the list only when selected is the operation executed only when selected. -/
theorem runOps_selected (due : Bool) (i : Instr) (s : State) :
    runOps (if due then [i] else []) s = execWhen due i s := by
  cases due
  · rfl
  · exact runOps_singleton i s

/-- Settles O4: the bits and the selection are the two tables, and the list of a cycle's operations, run part by part,
is the cycle. -/
theorem eventVectorSelectsTheCycle : Obligations.EventVectorSelectsTheCycle := by
  refine ⟨fun inp s0 s2 => ?_, decodeEvent_eq, fun inp s0 s1 s2 hservice hcommand => ?_⟩
  · simpa [serviceDue, countDue, Bool.and_comm] using eventVector_getLsbD inp s0 s2
  · have hservice : execWhen (serviceDue s0) .service s0 = .next s1 := by
      simpa [execWhen, serviceDue] using hservice
    rw [cycleOps_eventVector, cycleWith]
    cases inp.rst with
    | true => simp
    | false =>
      simp only [Bool.false_eq_true, if_false, runOps_append, runOps_selected, runOps_singleton, andThen_next,
        hservice, hcommand]

/-! ### The half-cells on the line (R63, R104) -/

/-- `k` ticks of the frame of `byte` have happened: the line shows half-cell `k - 1`, and while half-cells remain the
transmission stands at place `k`. After the 32nd tick a next request may be accepted; it leaves the line alone
(R105). -/
structure TicksIntoFrame (byte : Byte) (k : Nat) (s : State) : Prop where
  line : k ≠ 0 → s.outputLevel = halfCell byte (k - 1)
  active : k < 32 → s.txRequest = true ∧ s.payloadByte = byte ∧ s.pos.toNat = k

/-- An accepted request is the start of its frame. -/
theorem acceptRequest_ticksIntoFrame (byte : Byte) (s : State) : TicksIntoFrame byte 0 (acceptRequest byte s) :=
  ⟨fun h => absurd rfl h, fun _ => by simp⟩

/-- The ticks so far are read from the encoder alone. -/
theorem SameEncoder.ticksIntoFrame {s t : State} (same : SameEncoder s t) {byte : Byte} {k : Nat}
    (h : TicksIntoFrame byte k s) : TicksIntoFrame byte k t where
  line hk := same.outputLevel.trans (h.line hk)
  active hk := by
    rw [same.txRequest, same.payloadByte, same.pos]
    exact h.active hk

/-- The ticks so far put the line where a TICK needs it. -/
theorem TicksIntoFrame.activeInv {byte : Byte} {k : Nat} {s : State} (h : TicksIntoFrame byte k s) (hk : k < 32) :
    ActiveInv s := by
  obtain ⟨-, hbyte, hpos⟩ := h.active hk
  by_cases h0 : k = 0
  · exact .inl (BitVec.eq_of_toNat_eq (by simp [hpos, h0]))
  · exact .inr (by rw [hbyte, hpos, h.line h0])

/-- A TICK goes on by one half-cell. -/
theorem onTick_ticksIntoFrame {byte : Byte} {k : Nat} {s : State} (h : TicksIntoFrame byte k s) (hk : k < 32) :
    TicksIntoFrame byte (k + 1) (onTick s) := by
  obtain ⟨htx, hbyte, hpos⟩ := h.active hk
  refine ⟨fun _ => ?_, fun hnext => ?_⟩
  · rw [onTick_outputLevel s htx (h.activeInv hk), hbyte, hpos, Nat.add_sub_cancel]
  · have hlast : s.pos ≠ 31#5 := by
      intro h31
      have : s.pos.toNat = 31 := by rw [h31]; rfl
      omega
    obtain ⟨hpos', htx'⟩ := (onTick_pos s htx).1 hlast
    exact ⟨htx', by simpa using hbyte, by rw [hpos', pos_succ_toNat _ hlast, hpos]⟩

/-- How many ticks a cycle without reset contains. -/
def cycleTicks (s : State) : Nat := if serviceDue s then 1 else 0

/-- The SERVICE of a cycle goes on by one half-cell when it is due. -/
theorem afterService_ticksIntoFrame {byte : Byte} {k : Nat} {s : State} (h : TicksIntoFrame byte k s)
    (hk : k + cycleTicks s ≤ 32) : TicksIntoFrame byte (k + cycleTicks s) (afterService s) := by
  unfold cycleTicks at hk ⊢
  unfold afterService
  cases hdue : serviceDue s with
  | false => simpa [hdue] using h
  | true =>
    simp only [hdue, if_true] at hk ⊢
    exact (serviceTick_sameEncoder s).ticksIntoFrame (onTick_ticksIntoFrame h (by omega))

/-- A request accepted once no transmission stands leaves the line of the frame before it (R105). -/
theorem acceptRequest_keeps_ticksIntoFrame {byte : Byte} {k : Nat} {s : State} (h : TicksIntoFrame byte k s)
    (hidle : s.txRequest = false) (byte' : Byte) : TicksIntoFrame byte k (acceptRequest byte' s) where
  line hk := by simpa using h.line hk
  active hk := absurd (h.active hk).1 (by simp [hidle])

/-- A cycle without reset goes on by its ticks, whatever its command and its count. -/
theorem cycleEffect_ticksIntoFrame {byte : Byte} {k : Nat} {s : State} {inp : CycleInput} (hr : inp.rst = false)
    (h : TicksIntoFrame byte k s) (hk : k + cycleTicks s ≤ 32) :
    TicksIntoFrame byte (k + cycleTicks s) (cycleEffect inp s) := by
  have served := afterService_ticksIntoFrame h hk
  rcases cycleEffect_encoder_cases inp hr s with same | ⟨byte', -, hidle, same⟩
  · exact same.ticksIntoFrame served
  · exact same.ticksIntoFrame (acceptRequest_keeps_ticksIntoFrame served hidle byte')

/-- In a cycle without reset the ticks counted are those of its SERVICE. -/
theorem tickHappens_eq_cycleTicks {s : State} (hr : (nextInput s).rst = false) :
    (if tickHappens s then 1 else 0) = cycleTicks (sampleInput s) := by
  simp [tickHappens, cycleTicks, serviceDue, hr]

/-- A run without reset goes on by its ticks, up to the 32nd. -/
theorem runCycles_ticksIntoFrame {byte : Byte} (n : Nat) {k : Nat} {s : State} (h : TicksIntoFrame byte k s)
    (hr : NoReset (inputsDuring n s)) (hk : k + ticksDuring n s ≤ 32) :
    ∃ t, runCycles n s = .next t ∧ TicksIntoFrame byte (k + ticksDuring n s) t := by
  induction n generalizing k s with
  | zero => exact ⟨s, rfl, h⟩
  | succ n ih =>
    rw [inputsDuring_succ] at hr
    obtain ⟨hr0, hr⟩ := List.forall_mem_cons.mp hr
    rw [ticksDuring_succ, tickHappens_eq_cycleTicks hr0, ← Nat.add_assoc] at hk ⊢
    rw [runCycles_succ]
    have sampled := (sampleInput_sameEncoder s).ticksIntoFrame h
    exact ih (cycleEffect_ticksIntoFrame hr0 sampled (by omega)) hr hk

/-- Settles O38: from an accepted request on, a run goes on by its ticks, and the half-cells of the frame are the
preamble's and the payload's. -/
theorem lineShowsTheFrame : Obligations.LineShowsTheFrame := by
  intro s0 byte hidle
  refine ⟨acceptRequest byte s0, by simp [exec_eq_effect, effect, hidle], fun n p hr hticks hp => ?_⟩
  obtain ⟨t, hrun, hframe⟩ :=
    runCycles_ticksIntoFrame n (acceptRequest_ticksIntoFrame byte s0) hr (by omega)
  have hline : t.outputLevel = halfCell byte p := by simpa [hticks] using hframe.line (by omega)
  exact ⟨t, hrun, rfl, fun h => hline.trans (halfCell_of_lt byte p h),
    fun h => hline.trans (halfCell_of_ge byte p h hp)⟩

end Sys2Proof.Machine
end

section
/-! The family of spec/40_tick_source.md: COUNT and its firing (R76, R77), the parts of SERVICE (R79 to R81), and a
firing in a SERVICE's own cycle. -/
namespace Sys2Proof.Machine
open Sys2Proof

/-! ### The parts have no encoding of their own (R56) -/

/-- The host commands are selected by themselves. -/
theorem wellFormed_of_isCommand {i : Instr} (h : i.isCommand = true) : i.WellFormed = true := by
  cases i with
  | nop | req | start | suspend | resume | illegal5 | illegal6 | illegal7 => rfl
  | reset | service | reload | ack | tick | count | fire => exact absurd h Bool.false_ne_true

/-- The event vector selects RESET, SERVICE and COUNT alone. -/
theorem wellFormed_of_mem_decodeEvent {i : Instr} {ev : EventVector} (h : i ∈ decodeEvent ev) :
    i.WellFormed = true := by
  have hi : i = .reset ∨ i = .service ∨ i = .count := by
    simp only [decodeEvent, List.mem_append, List.mem_ite_nil_right, List.mem_singleton] at h
    tauto
  rcases hi with rfl | rfl | rfl <;> rfl

/-- No command word and no event vector selects a part. -/
theorem part_not_selected {i : Instr} (h : i.WellFormed = false) :
    (∀ cmd, decodeCommand cmd ≠ i) ∧ ∀ ev, i ∉ decodeEvent ev := by
  refine ⟨fun cmd hcmd => ?_, fun ev hev => ?_⟩
  · have := wellFormed_of_isCommand (decodeCommand_isCommand cmd)
    simp [hcmd, h] at this
  · simp [wellFormed_of_mem_decodeEvent hev] at h

/-! ### COUNT (R76) -/

/-- The COUNT that finds 0 is FIRE. -/
theorem countTimer_of_eq {s : State} (h : s.tmr = 0#16) : countTimer s = fireTimer s := if_pos h

/-- Any other COUNT decrements the timer. -/
theorem countTimer_of_ne {s : State} (h : s.tmr ≠ 0#16) : countTimer s = loadTimer (s.tmr - 1#16) s := if_neg h

/-- The decrement of a timer that is not 0 does not borrow. -/
theorem toNat_sub_one_of_ne {v : TimerWord} (h : v ≠ 0#16) : (v - 1#16).toNat = v.toNat - 1 := by
  bv_omega

theorem afterService_of_not_due {s : State} (h : serviceDue s = false) : afterService s = s := by
  simp [afterService, h]

theorem afterService_of_due {s : State} (h : serviceDue s = true) : afterService s = serviceTick s := by
  simp [afterService, h]

/-- A cycle of NOP with no SERVICE due is a COUNT when the timer counts, and nothing otherwise. -/
theorem cycleWith_nop_of_not_due {s : State} (h : serviceDue s = false) (cntEn : Bool) :
    cycleWith { rst := false, cntEn := cntEn, cmd := 0x000#11 } s = execWhen (s.tmrOn && cntEn) .count s := by
  have hnop : decodeCommand 0x000#11 = .nop := by decide
  rw [cycleWith, h, hnop]
  rfl

/-- Settles O20: the two branches of COUNT, and the cycle that is at most a COUNT. -/
theorem countDecrementsOrFires : Obligations.CountDecrementsOrFires := by
  refine ⟨fun s h0 => ?_, fun s hne => ⟨?_, toNat_sub_one_of_ne hne⟩, fun s cntEn hon hdue => ?_,
    fun s cntEn hoff hdue => ?_⟩
  · exact congrArg Host.Outcome.next (countTimer_of_eq h0)
  · exact congrArg Host.Outcome.next (countTimer_of_ne hne)
  · obtain ⟨hon, rfl⟩ := hon
    rw [cycleWith_nop_of_not_due hdue, hon]
    rfl
  · rw [cycleWith_nop_of_not_due hdue, Bool.and_eq_false_iff.mpr hoff]
    rfl

/-! ### COUNTs up to the next firing (R77) -/

theorem runOps_count_succ (n : Nat) (s : State) :
    runOps (List.replicate (n + 1) .count) s = runOps (List.replicate n .count) (countTimer s) := rfl

/-- As many COUNTs as the timer's value, or fewer, do not fire: they take their number from the timer. -/
theorem runOps_count_of_le (n : Nat) (s : State) (hn : n ≤ s.tmr.toNat) :
    runOps (List.replicate n .count) s = .next (loadTimer (s.tmr - BitVec.ofNat 16 n) s) := by
  induction n generalizing s with
  | zero => simp [runOps, loadTimer]
  | succ n ih =>
    have hne : s.tmr ≠ 0#16 := by
      intro h
      simp [h] at hn
    have hle : n ≤ (s.tmr - 1#16).toNat := by rw [toNat_sub_one_of_ne hne]; omega
    have hsub : s.tmr - 1#16 - BitVec.ofNat 16 n = s.tmr - BitVec.ofNat 16 (n + 1) := by
      rw [BitVec.sub_sub, BitVec.ofNat_add, BitVec.add_comm]
    rw [runOps_count_succ, countTimer_of_ne hne, ih _ hle, loadTimer_tmr, hsub]
    rfl

/-- One COUNT more than the timer's value ends in the firing. -/
theorem runOps_count_fires (n : Nat) (s : State) (hn : n = s.tmr.toNat) :
    runOps (List.replicate (n + 1) .count) s = .next (fireTimer s) := by
  have hzero : s.tmr - BitVec.ofNat 16 n = 0#16 := by simp [hn]
  rw [List.replicate_succ', runOps_append, runOps_count_of_le n s hn.le, andThen_next, runOps_singleton,
    exec_eq_effect, hzero]
  exact congrArg Host.Outcome.next (countTimer_of_eq rfl)

/-- Settles O21: a COUNT that finds 0 is FIRE, and from 0xFFFF the COUNTs go down to 0 and then fire. -/
theorem fireSetsPendingAndWraps : Obligations.FireSetsPendingAndWraps := by
  obtain ⟨hcmd, hev⟩ := part_not_selected (i := .fire) rfl
  refine ⟨hcmd, hev, fun s => ⟨fireTimer s, rfl, rfl, rfl, fun h0 => ?_, fun hpending => ?_, fun n hn => ?_, ?_⟩⟩
  · exact congrArg Host.Outcome.next (countTimer_of_eq h0)
  · simp [fireTimer, setPending, loadTimer, ← hpending]
  · exact runOps_count_of_le n (clearPending (fireTimer s)) (Nat.le_of_lt_succ hn)
  · exact runOps_count_fires 0xFFFF (clearPending (fireTimer s)) rfl

/-! ### A firing in a SERVICE's own cycle (R79, R80) -/

/-- A cycle whose COUNT is enabled and finds 0 after the host command ends with the firing. -/
theorem cycleEffect_of_fires {inp : CycleInput} {s : State} (hr : inp.rst = false) (hcnt : inp.cntEn = true)
    (hon : (afterCommand inp s).tmrOn = true) (h0 : (afterCommand inp s).tmr = 0#16) :
    cycleEffect inp s = fireTimer (afterCommand inp s) := by
  simp [cycleEffect, hr, afterCount, countDue, hon, hcnt, countTimer_of_eq h0]

/-- Of the host commands START alone writes the timer, and none stops it (R19, R21). -/
theorem effect_command_timer {i : Instr} (hi : i.isCommand = true) (hne : i ≠ .start) (s : State) :
    (effect i s).tmr = s.tmr ∧ (effect i s).tmrOn = s.tmrOn := by
  cases i with
  | req byte => cases htx : s.txRequest <;> simp [effect, htx]
  | start => exact absurd rfl hne
  | nop | suspend | resume | illegal5 | illegal6 | illegal7 => exact ⟨rfl, rfl⟩
  | reset | service | reload | ack | tick | count | fire => exact absurd hi Bool.false_ne_true

/-- Settles O23: with HANDLER_RELOAD = 0 the timer is 0 after the SERVICE, the command keeps it, and the COUNT fires. -/
theorem reloadLoadsHandlerReload : Obligations.ReloadLoadsHandlerReload := by
  obtain ⟨hcmd, hev⟩ := part_not_selected (i := .reload) rfl
  refine ⟨hcmd, hev, fun _ => rfl, fun s cmd hdue hon hzero hstart => ?_⟩
  obtain ⟨htmr, htmrOn⟩ := effect_command_timer (decodeCommand_isCommand cmd) hstart (serviceTick s)
  refine ⟨_, cycleWith_eq _ s, ?_⟩
  rw [cycleEffect_of_fires rfl rfl]
  · exact ⟨rfl, rfl⟩
  · rw [afterCommand, afterService_of_due hdue, htmrOn, serviceTick_tmrOn, hon]
  · rw [afterCommand, afterService_of_due hdue, htmr, serviceTick_tmr, hzero]

/-- Settles O24: the cycle ends with the firing, which sets the bit that the SERVICE cleared. -/
theorem ackClearsPending : Obligations.AckClearsPending := by
  obtain ⟨hcmd, hev⟩ := part_not_selected (i := .ack) rfl
  refine ⟨hcmd, hev, fun _ => rfl, fun s inp s1 s2 hr hdue hservice hcommand hon hcnt h0 => ?_⟩
  cases (exec_eq_effect .service s).symm.trans hservice
  cases (exec_eq_effect _ _).symm.trans hcommand
  have hs2 : afterCommand inp s = effect (decodeCommand inp.cmd) (effect .service s) :=
    congrArg (effect _) (afterService_of_due hdue)
  rw [← hs2] at hon h0
  refine ⟨serviceTick_tickPending s, _, cycleWith_eq inp s, ?_⟩
  rw [cycleEffect_of_fires hr hcnt hon h0, hs2]
  exact ⟨rfl, rfl, Bool.true_and _⟩

/-! ### SERVICE and the order of its parts (R81) -/

/-- TICK neither reads nor writes the timer and the pending bit (R90). -/
theorem onTick_setTimerAndPending (v : TimerWord) (p : Bool) (s : State) :
    onTick { s with tmr := v, tickPending := p } = { onTick s with tmr := v, tickPending := p } := by
  simp only [onTick, tickSecondHalf]
  split
  · split
    · rfl
    · split <;> rfl
  · rfl

/-- SERVICE is TICK on the encoder, with the timer loaded and the pending bit cleared. -/
theorem serviceTick_eq (s : State) :
    serviceTick s = { onTick s with tmr := s.handlerReload, tickPending := false } :=
  onTick_setTimerAndPending s.handlerReload false s

theorem onTick_reloadTimer (s : State) : onTick (reloadTimer s) = reloadTimer (onTick s) := by
  have h := onTick_setTimerAndPending s.handlerReload s.tickPending s
  simpa [reloadTimer, loadTimer] using h

theorem onTick_clearPending (s : State) : onTick (clearPending s) = clearPending (onTick s) := by
  have h := onTick_setTimerAndPending s.tmr false s
  simpa [clearPending] using h

/-- Any two parts of SERVICE commute. -/
theorem service_parts_commute :
    ∀ i ∈ [Instr.reload, .ack, .tick], ∀ j ∈ [Instr.reload, .ack, .tick], ∀ s : State,
      effect j (effect i s) = effect i (effect j s) := by
  simp only [List.mem_cons, List.not_mem_nil, or_false, forall_eq_or_imp, forall_eq, implies_true, true_and, and_true]
  exact ⟨⟨fun _ => rfl, onTick_reloadTimer⟩, ⟨fun _ => rfl, onTick_clearPending⟩,
    fun s => (onTick_reloadTimer s).symm, fun s => (onTick_clearPending s).symm⟩

/-- Operations one after the other, as a function of states. -/
theorem runOps_eq_foldl (ops : List Instr) (s : State) :
    runOps ops s = .next (ops.foldl (fun t i => effect i t) s) := by
  induction ops generalizing s with
  | nil => rfl
  | cons i ops ih => rw [runOps, exec_eq_effect, andThen_next, ih, List.foldl_cons]

/-- The parts of SERVICE in any order are SERVICE. -/
theorem runOps_of_perm_service_parts {ops : List Instr} (h : ops.Perm [.reload, .ack, .tick]) (s : State) :
    runOps ops s = exec .service s := by
  rw [runOps_eq_foldl, ← h.symm.foldl_eq' service_parts_commute s]
  rfl

/-- The event vector selects SERVICE by its bit 1, unless RESET suppresses it (R62). -/
theorem service_mem_decodeEvent (ev : EventVector) :
    .service ∈ decodeEvent ev ↔ ev.getLsbD 2 = false ∧ ev.getLsbD 1 = true := by
  rw [decodeEvent_eq]
  cases ev.getLsbD 2 <;> simp

/-- Settles O25: the three parts commute, so each order is RELOAD; ACK; TICK. -/
theorem serviceIsReloadAckTick : Obligations.ServiceIsReloadAckTick := by
  refine ⟨service_mem_decodeEvent, fun inp s0 s2 => ?_, fun s =>
    ⟨fun ops hperm => runOps_of_perm_service_parts hperm s, serviceTick s, onTick s, rfl, rfl, serviceTick_eq s, rfl,
      serviceTick_tickPending s⟩⟩
  obtain ⟨-, hsvc, -⟩ := eventVector_getLsbD inp s0 s2
  rw [hsvc]
  simp only [serviceDue, Bool.and_eq_true, Bool.not_eq_true']
  tauto

end Sys2Proof.Machine
end

section
/-! The family of spec/41_encoder.md: what one TICK does in each state of the encoder (R90 to R99), the summary table
(R102), and the ticks of a frame from its request on (R103, R105). -/
namespace Sys2Proof.Machine
open Sys2Proof

/-! ### TICK case by case (R91, R94, R96 to R99) -/

theorem onTick_of_idle {s : State} (htx : s.txRequest = false) : onTick s = tickIdle s := by
  simp [onTick, htx]

theorem onTick_of_firstHalf {s : State} (htx : s.txRequest = true) (hhalf : s.halfPhase = .firstHalf) :
    onTick s = tickFirstHalf s := by
  simp [onTick, htx, hhalf]

theorem onTick_of_secondHalf {s : State} (htx : s.txRequest = true) (hhalf : s.halfPhase = .secondHalf) :
    onTick s = tickSecondHalf s := by
  simp [onTick, htx, hhalf]

/-- Within a byte a second half advances the bit index alone (R97). -/
theorem tickSecondHalf_of_ne {s : State} (hbit : s.bitIndex ≠ 7#3) :
    tickSecondHalf s =
      { s with outputLevel := s.outputLevel.inv, halfPhase := .firstHalf, bitIndex := s.bitIndex + 1#3 } := by
  simp [tickSecondHalf, byteComplete, nextBitIndex, hbit]

/-- At the end of a byte a second half wraps the bit index and ends the byte (R97). -/
theorem tickSecondHalf_of_eq {s : State} (hbit : s.bitIndex = 7#3) :
    tickSecondHalf s =
      endByte { s with outputLevel := s.outputLevel.inv, halfPhase := .firstHalf, bitIndex := 0#3 } := by
  simp [tickSecondHalf, byteComplete, nextBitIndex, hbit]

/-- The end of the preamble: the payload follows, the request stands (R98). -/
theorem endByte_of_preamble {s : State} (htx : s.txRequest = true) (hphase : s.framePhase = .sendingPreamble) :
    endByte s = { s with framePhase := .sendingPayload } := by
  simp [endByte, hphase, phaseAfterByte, requestAfterByte, htx]

/-- The end of the payload: the request is done, the phase is held (R99). -/
theorem endByte_of_payload {s : State} (hphase : s.framePhase = .sendingPayload) :
    endByte s = { s with txRequest := false } := by
  simp [endByte, hphase, phaseAfterByte, requestAfterByte]

/-- The inverted level, as a choice between the two. -/
theorem Level.inv_eq_ite (l : Level) : l.inv = if l = .low then .high else .low := by
  cases l <;> rfl

/-- The complement of a bit on the line (R94). -/
theorem Level.inv_ofBit_eq_ite (b : Bool) : (Level.ofBit b).inv = if b = true then .low else .high := by
  cases b <;> rfl

/-- Settles O30: an idle TICK is `tickIdle`, and so is the second one. -/
theorem idleTickForcesLow : Obligations.IdleTickForcesLow := by
  intro s hidle
  refine ⟨tickIdle s, congrArg Host.Outcome.next (onTick_of_idle hidle), rfl, ?_⟩
  exact congrArg Host.Outcome.next (onTick_of_idle (s := tickIdle s) hidle)

/-- Every bit of the preamble is 1 (R92). -/
theorem dataBit_of_preamble {s : State} (hphase : s.framePhase = .sendingPreamble) : dataBit s = true := by
  have ones : ∀ index : BitIndex, bitToSend Config.preamble index = true := by decide
  rw [dataBit_eq, hphase]
  exact ones s.bitIndex

/-- In the payload the data bit is the payload's, bit 7 first (R92, R93). -/
theorem dataBit_of_payload {s : State} (hphase : s.framePhase = .sendingPayload) :
    dataBit s = s.payloadByte.getLsbD (7 - s.bitIndex.toNat) := by
  rw [dataBit_eq, hphase]
  rfl

/-- Settles O31: a first half drives the complement of the data bit, which is 1 in the preamble and the payload's bit
after it. -/
theorem firstHalfSendsTheComplement : Obligations.FirstHalfSendsTheComplement := by
  intro s htx hhalf
  refine ⟨fun hphase => ?_, fun hphase => ?_⟩ <;>
    rw [exec_eq_effect, effect, onTick_of_firstHalf htx hhalf, tickFirstHalf, Level.inv_ofBit_eq_ite]
  · rw [dataBit_of_preamble hphase, if_pos rfl]
  · rw [dataBit_of_payload hphase]

/-- Where the line and the place agree, a second half sends the data bit (R96). -/
theorem onTick_outputLevel_of_secondHalf {s : State} (htx : s.txRequest = true) (hhalf : s.halfPhase = .secondHalf)
    (hinv : ActiveInv s) : (onTick s).outputLevel = Level.ofBit (dataBit s) := by
  rw [onTick_outputLevel s htx hinv, dataBit_eq, ← halfCell_secondHalf, State.pos, hhalf]

/-- Settles O32: a second half inverts the line, and the three clauses are the three ways it advances. -/
theorem secondHalfInvertsAndAdvances : Obligations.SecondHalfInvertsAndAdvances := by
  intro s htx hhalf
  rw [exec_eq_effect, effect, ← Level.inv_eq_ite]
  refine ⟨fun hbit => ?_, fun hbit hphase => ⟨?_, ?_⟩, fun hbit hphase => ⟨?_, ?_⟩, fun hinv => ⟨onTick s, rfl, ?_⟩⟩
  · rw [onTick_of_secondHalf htx hhalf, tickSecondHalf_of_ne hbit]
  · rw [State.pos, hphase, hbit, hhalf]; rfl
  · rw [onTick_of_secondHalf htx hhalf, tickSecondHalf_of_eq hbit, endByte_of_preamble]; exacts [htx, hphase]
  · rw [State.pos, hphase, hbit, hhalf]; rfl
  · rw [onTick_of_secondHalf htx hhalf, tickSecondHalf_of_eq hbit, endByte_of_payload]; exact hphase
  · obtain ⟨-, active, -⟩ := hinv
    exact onTick_outputLevel_of_secondHalf htx hhalf (active htx)

/-! ### What TICK reads and writes (R90) -/

/-- TICK writes five fields of the encoder at most. -/
theorem onTick_frame (s : State) :
    onTick s = { s with
      outputLevel := (onTick s).outputLevel, txRequest := (onTick s).txRequest, framePhase := (onTick s).framePhase
      bitIndex := (onTick s).bitIndex, halfPhase := (onTick s).halfPhase } := by
  rcases onTick_cases s with ⟨-, h⟩ | ⟨-, -, h⟩ | ⟨-, -, h⟩ <;> rw [h]
  · rfl
  · rfl
  · by_cases hbit : s.bitIndex = 7#3
    · rw [tickSecondHalf_of_eq hbit]; rfl
    · rw [tickSecondHalf_of_ne hbit]

theorem SameEncoder.dataBit_eq {s t : State} (same : SameEncoder s t) : dataBit t = dataBit s := by
  rw [Machine.dataBit_eq, Machine.dataBit_eq, same.payloadByte, same.framePhase, same.bitIndex]

/-- The second half of a cell writes the encoder from the encoder alone. -/
theorem SameEncoder.tickSecondHalf {s t : State} (same : SameEncoder s t) :
    SameEncoder (Machine.tickSecondHalf s) (Machine.tickSecondHalf t) := by
  obtain ⟨hlevel, htx, hpayload, hphase, hbit, -⟩ := same
  by_cases h7 : s.bitIndex = 7#3
  · rw [tickSecondHalf_of_eq h7, tickSecondHalf_of_eq (hbit.trans h7)]
    constructor <;> simp [hlevel, hpayload, hphase]
  · rw [tickSecondHalf_of_ne h7, tickSecondHalf_of_ne (hbit ▸ h7)]
    constructor <;> simp [hlevel, htx, hpayload, hphase, hbit]

/-- TICK writes the encoder from the encoder alone. -/
theorem SameEncoder.onTick {s t : State} (same : SameEncoder s t) :
    SameEncoder (Machine.onTick s) (Machine.onTick t) := by
  rcases onTick_cases s with ⟨htx, h⟩ | ⟨htx, hhalf, h⟩ | ⟨htx, hhalf, h⟩ <;> rw [h]
  · rw [onTick_of_idle (same.txRequest.trans htx)]
    exact { same with outputLevel := rfl }
  · rw [onTick_of_firstHalf (same.txRequest.trans htx) (same.halfPhase.trans hhalf)]
    exact { same with outputLevel := congrArg (Level.inv ∘ Level.ofBit) same.dataBit_eq, halfPhase := rfl }
  · rw [onTick_of_secondHalf (same.txRequest.trans htx) (same.halfPhase.trans hhalf)]
    exact same.tickSecondHalf

/-- Settles O29: the frame of a TICK, what it does to the request, and that it reads the encoder alone. -/
theorem tickTouchesTheEncoderOnly : Obligations.TickTouchesTheEncoderOnly := by
  obtain ⟨hcmd, hev⟩ := part_not_selected (i := .tick) rfl
  refine ⟨hcmd, hev, fun s => ⟨onTick s, rfl, onTick_frame s, fun h1 => ?_, fun h1 h0 => ?_⟩,
    fun s s' t t' hlevel htx hpayload hphase hbit hhalf ht ht' => ?_⟩
  · rw [onTick_txRequest, Bool.and_eq_true] at h1
    exact h1.1
  · simpa [onTick_txRequest, h1] using h0
  · cases (exec_eq_effect .tick s).symm.trans ht
    cases (exec_eq_effect .tick s').symm.trans ht'
    have same : SameEncoder s' s := ⟨hlevel, htx, hpayload, hphase, hbit, hhalf⟩
    obtain ⟨hlevel', htx', hpayload', hphase', hbit', hhalf'⟩ := same.onTick
    exact ⟨hlevel', htx', hpayload', hphase', hbit', hhalf'⟩

/-! ### The summary states (R102) -/

/-- The frame phase is the first half or the second half of the 32 places (R17). -/
theorem framePhase_eq_of_pos (s : State) :
    s.framePhase = if s.pos.toNat < 16 then .sendingPreamble else .sendingPayload := by
  have places : ∀ (index : BitIndex) (half : HalfPhase),
      (framePosition .sendingPreamble index half).toNat < 16 ∧
        ¬ (framePosition .sendingPayload index half).toNat < 16 := by
    intro index half
    cases half <;> revert index <;> decide
  cases hphase : s.framePhase <;> simp [State.pos, hphase, places]

/-- The summary is read from the request and the place (R102). -/
theorem summary_eq (s : State) :
    s.summary = if s.txRequest then (if s.pos.toNat < 16 then .preamble else .payload) else .idle := by
  rw [State.summary, framePhase_eq_of_pos s]
  by_cases h : s.pos.toNat < 16 <;> simp [h]

theorem summary_eq_idle_iff (s : State) : s.summary = .idle ↔ s.txRequest = false := by
  cases htx : s.txRequest <;> cases hphase : s.framePhase <;> simp [State.summary, htx, hphase]

theorem txRequest_of_summary_ne_idle {s : State} (h : s.summary ≠ .idle) : s.txRequest = true := by
  simpa [summary_eq_idle_iff] using h

/-- Before the last place a TICK goes on to the next one (R102). -/
theorem onTick_summary_of_ne {s : State} (htx : s.txRequest = true) (hlast : s.pos ≠ 31#5) :
    (onTick s).summary = if s.pos.toNat < 15 then .preamble else .payload := by
  obtain ⟨hpos, htx'⟩ := (onTick_pos s htx).1 hlast
  have half : s.pos.toNat + 1 < 16 ↔ s.pos.toNat < 15 := by omega
  simp [summary_eq, htx', hpos, pos_succ_toNat s.pos hlast, half]

/-- A REQ that finds no transmission is accepted (R112). -/
theorem exec_req_of_idle {s : State} (hidle : s.txRequest = false) (byte : Byte) :
    exec (.req byte) s = .next (acceptRequest byte s) := by
  simp [exec_eq_effect, effect, hidle]

/-- A REQ that finds a transmission is reported (R113). -/
theorem exec_req_of_active {s : State} (htx : s.txRequest = true) (byte : Byte) :
    exec (.req byte) s = .next (raise .busyRequest s) := by
  simp [exec_eq_effect, effect, htx]

/-- Settles O34: the summary after a TICK is read from the place that the TICK leads to. -/
theorem summaryTransitions : Obligations.SummaryTransitions := by
  intro s
  refine ⟨fun hidle => ?_, fun hpre => ⟨onTick s, rfl, ?_⟩, fun hpay => ⟨onTick s, rfl, ?_⟩, fun hactive byte => ?_,
    ⟨resetState s, rfl, rfl⟩, fun i t hexec hactive hidle => ?_⟩
  · rw [summary_eq_idle_iff] at hidle
    refine ⟨⟨tickIdle s, congrArg Host.Outcome.next (onTick_of_idle hidle), ?_, rfl⟩,
      fun byte => ⟨acceptRequest byte s, exec_req_of_idle hidle byte, rfl, acceptRequest_pos byte s⟩⟩
    simpa [summary_eq_idle_iff] using hidle
  · have htx := txRequest_of_summary_ne_idle (s := s) (by simp [hpre])
    refine ⟨fun hle => ?_, fun h15 => ?_⟩
    · have hlast : s.pos ≠ 31#5 := by bv_omega
      exact ⟨by rw [onTick_summary_of_ne htx hlast, if_pos (by omega)], ((onTick_pos s htx).1 hlast).1⟩
    · have hlast : s.pos ≠ 31#5 := by rw [h15]; decide
      exact ⟨by rw [onTick_summary_of_ne htx hlast, h15]; rfl, by rw [((onTick_pos s htx).1 hlast).1, h15]; rfl⟩
  · have htx := txRequest_of_summary_ne_idle (s := s) (by simp [hpay])
    refine ⟨fun ⟨hge, hle⟩ => ?_, fun h31 => ?_⟩
    · have hlast : s.pos ≠ 31#5 := by bv_omega
      exact ⟨by rw [onTick_summary_of_ne htx hlast, if_neg (by omega)], ((onTick_pos s htx).1 hlast).1⟩
    · exact (summary_eq_idle_iff _).mpr ((onTick_pos s htx).2 h31).2
  · exact ⟨raise .busyRequest s, exec_req_of_active (txRequest_of_summary_ne_idle hactive) byte, rfl⟩
  · cases (exec_eq_effect i s).symm.trans hexec
    exact reset_or_lastTick_of_txRequest_falls (txRequest_of_summary_ne_idle hactive)
      ((summary_eq_idle_iff _).mp hidle)

/-! ### The ticks of a frame (R103) -/

/-- A run of cycles has a last state. -/
theorem runCycles_next (n : Nat) (s : State) : ∃ t, runCycles n s = .next t := by
  induction n generalizing s with
  | zero => exact ⟨s, rfl⟩
  | succ n ih => exact runCycles_succ n s ▸ ih _

/-- The 32nd tick of a frame ends the request (R99, R103). -/
theorem serviceTick_txRequest_of_ticksIntoFrame {byte : Byte} {s : State} (h : TicksIntoFrame byte 31 s) :
    (serviceTick s).txRequest = false := by
  obtain ⟨-, -, hpos⟩ := h.active (by decide)
  have hlast : s.pos = 31#5 := BitVec.eq_of_toNat_eq hpos
  simp [serviceTick_txRequest, hlast]

/-- Settles O37: up to the 31st tick the frame counts the ticks by its place, and from there SERVICE ends it. -/
theorem frameTakesThirtyTwoTicks : Obligations.FrameTakesThirtyTwoTicks := by
  intro s0 byte hidle
  refine ⟨acceptRequest byte s0, exec_req_of_idle hidle byte, fun n hr => ?_⟩
  obtain ⟨t, hrun⟩ := runCycles_next n (acceptRequest byte s0)
  have inFrame (hle : ticksDuring n (acceptRequest byte s0) ≤ 31) :
      TicksIntoFrame byte (ticksDuring n (acceptRequest byte s0)) t := by
    obtain ⟨t', hrun', hframe⟩ := runCycles_ticksIntoFrame n (acceptRequest_ticksIntoFrame byte s0) hr (by omega)
    cases hrun.symm.trans hrun'
    simpa using hframe
  refine ⟨t, hrun, fun hle => ?_, fun h31 _ => ⟨serviceTick (sampleInput t), rfl, ?_⟩⟩
  · obtain ⟨htx, hbyte, hpos⟩ := (inFrame hle).active (by omega)
    exact ⟨htx, hpos, hbyte⟩
  · have hframe := inFrame h31.le
    rw [h31] at hframe
    exact serviceTick_txRequest_of_ticksIntoFrame ((sampleInput_sameEncoder t).ticksIntoFrame hframe)

/-! ### The line before the first tick (R105) -/

/-- A cycle with neither RESET nor SERVICE leaves the line, an accepted REQ included (R105). -/
theorem cycleEffect_outputLevel_of_not_due {inp : CycleInput} {s : State} (hr : inp.rst = false)
    (hdue : serviceDue s = false) : (cycleEffect inp s).outputLevel = s.outputLevel := by
  rcases cycleEffect_encoder_cases inp hr s with same | ⟨byte, -, -, same⟩ <;>
    simpa [afterService_of_not_due hdue] using same.outputLevel

/-- A run without reset and without ticks leaves the line. -/
theorem runCycles_outputLevel_of_no_tick {n : Nat} {s t : State} (hr : NoReset (inputsDuring n s))
    (hticks : ticksDuring n s = 0) (hrun : runCycles n s = .next t) : t.outputLevel = s.outputLevel := by
  induction n generalizing s with
  | zero => cases hrun; rfl
  | succ n ih =>
    rw [inputsDuring_succ] at hr
    obtain ⟨hr0, hr⟩ := List.forall_mem_cons.mp hr
    rw [ticksDuring_succ, tickHappens_eq_cycleTicks hr0, Nat.add_eq_zero_iff] at hticks
    obtain ⟨hnow, hlater⟩ := hticks
    have hdue : serviceDue (sampleInput s) = false := by simpa [cycleTicks] using hnow
    rw [runCycles_succ] at hrun
    rw [ih hr hlater hrun, cycleEffect_outputLevel_of_not_due hr0 hdue, sampleInput_outputLevel]

/-- Settles O39: without ticks the line stays, and the first tick goes on to half-cell 0, which is LOW. -/
theorem requestWaitsForTheTick : Obligations.RequestWaitsForTheTick := by
  intro s0 byte hidle
  refine ⟨acceptRequest byte s0, exec_req_of_idle hidle byte, rfl, fun n hr hticks => ?_⟩
  obtain ⟨t, hrun, hframe⟩ :=
    runCycles_ticksIntoFrame n (acceptRequest_ticksIntoFrame byte s0) hr (by omega)
  refine ⟨t, hrun, runCycles_outputLevel_of_no_tick (s := acceptRequest byte s0) hr hticks hrun,
    fun _ => ⟨serviceTick (sampleInput t), rfl, ?_⟩⟩
  rw [hticks] at hframe
  have ticked : TicksIntoFrame byte 1 (serviceTick (sampleInput t)) :=
    (serviceTick_sameEncoder _).ticksIntoFrame
      (onTick_ticksIntoFrame ((sampleInput_sameEncoder t).ticksIntoFrame hframe) (by decide))
  obtain ⟨htx, -, hpos⟩ := ticked.active (by decide)
  exact ⟨(ticked.line (by decide)).trans (halfCell_of_lt byte 0 (by decide)), BitVec.eq_of_toNat_eq hpos, htx⟩

end Sys2Proof.Machine
end

section
/-! The family of spec/42_host_commands.md: the cycle as SERVICE, host command and COUNT (R118), and what each host
command does to the state and to its own cycle (R111 to R117). -/
namespace Sys2Proof.Machine
open Sys2Proof

/-! ### The cycle of a command (R118) -/

/-- A cycle without reset whose word decodes to `i` is SERVICE if due, `i`, COUNT if due. -/
theorem cycleWith_of_decodeCommand {inp : CycleInput} {i : Instr} (hr : inp.rst = false)
    (hcmd : decodeCommand inp.cmd = i) (s0 : State) :
    cycleWith inp s0 =
      andThen (if s0.tickPending = true ∧ s0.tickIe = true then exec .service s0 else .next s0) fun s1 =>
      andThen (exec i s1) fun s2 =>
      if s2.tmrOn = true ∧ inp.cntEn = true then exec .count s2 else .next s2 := by
  simp only [cycleWith, hr, hcmd, execWhen, serviceDue, countDue, Bool.and_eq_true, Bool.false_eq_true, if_false]

/-- Settles O6: `rst` chooses between RESET and the three stages. -/
theorem cycleIsServiceCommandCount : Obligations.CycleIsServiceCommandCount :=
  fun _ s0 => ⟨fun hr => if_pos hr, fun hr => cycleWith_of_decodeCommand hr rfl s0⟩

/-- A SERVICE selected by the two bits of the state leads to `afterService`. -/
theorem service_if_due_eq (s : State) :
    (if s.tickPending = true ∧ s.tickIe = true then exec .service s else .next s) = .next (afterService s) := by
  by_cases h : s.tickPending = true ∧ s.tickIe = true <;> simp [afterService, serviceDue, exec_eq_effect, effect, h]

@[simp] theorem afterService_initPreload (s : State) : (afterService s).initPreload = s.initPreload := by
  unfold afterService; split <;> simp

/-- Every command but REQ leaves the encoder of its cycle to the SERVICE. -/
theorem cycleEffect_sameEncoder_of_not_req {inp : CycleInput} (hr : inp.rst = false)
    (hreq : isReq (decodeCommand inp.cmd) = false) (s : State) : SameEncoder (afterService s) (cycleEffect inp s) := by
  rcases cycleEffect_encoder_cases inp hr s with same | ⟨byte, hcmd, -, -⟩
  · exact same
  · simp [hcmd, isReq] at hreq

/-- In a cycle without reset the COUNT leaves the delivery bit as the host command left it (R23). -/
theorem cycleEffect_tickIe {inp : CycleInput} (hr : inp.rst = false) (s : State) :
    (cycleEffect inp s).tickIe = (afterCommand inp s).tickIe := by
  simp [cycleEffect, hr, afterCount, apply_ite State.tickIe]

/-! ### NOP and the reserved opcodes (R111, R117) -/

/-- Settles O13: the command stage of a cycle of NOP holds the state. -/
theorem nopWritesNothing : Obligations.NopWritesNothing := by
  have hword (byte : Byte) : decodeCommand (commandOf 0b000#3 byte) = .nop := decodeCommand_commandOf _ _
  refine ⟨rfl, hword, fun _ => rfl, fun s cntEn byte => ?_⟩
  exact cycleWith_of_decodeCommand (inp := ⟨false, cntEn, commandOf 0b000#3 byte⟩) rfl (hword byte) s

/-- Settles O19: each of the three reserved operations raises IllegalCommand as the command stage of its cycle. -/
theorem reservedOpcodesReportOnly : Obligations.ReservedOpcodesReportOnly := by
  have hword (byte : Byte) : decodeCommand (commandOf 0b101#3 byte) = .illegal5 ∧
      decodeCommand (commandOf 0b110#3 byte) = .illegal6 ∧ decodeCommand (commandOf 0b111#3 byte) = .illegal7 :=
    ⟨decodeCommand_commandOf _ _, decodeCommand_commandOf _ _, decodeCommand_commandOf _ _⟩
  refine ⟨hword, fun _ => ⟨rfl, rfl, rfl⟩, fun s cntEn op byte hop => ?_⟩
  obtain ⟨h5, h6, h7⟩ := hword byte
  rcases hop with rfl | rfl | rfl
  · exact cycleWith_of_decodeCommand (inp := ⟨false, cntEn, commandOf 0b101#3 byte⟩) rfl h5 s
  · exact cycleWith_of_decodeCommand (inp := ⟨false, cntEn, commandOf 0b110#3 byte⟩) rfl h6 s
  · exact cycleWith_of_decodeCommand (inp := ⟨false, cntEn, commandOf 0b111#3 byte⟩) rfl h7 s

/-! ### REQ (R112, R113) -/

/-- The word of a request, as R112 writes it, decodes to that request. -/
theorem decodeCommand_reqWord (byte : Byte) : decodeCommand (0x100#11 ||| byte.setWidth 11) = .req byte := by
  rw [reqWord_eq]
  exact decodeCommand_commandOf _ _

/-- The first TICK after an accepted request sends the complement of the preamble's first bit (R92, R94). -/
theorem onTick_acceptRequest_outputLevel (byte : Byte) (s : State) :
    (onTick (acceptRequest byte s)).outputLevel = .low := by
  rw [onTick_of_firstHalf rfl rfl, tickFirstHalf, dataBit_of_preamble rfl]
  rfl

/-- Settles O14: the accepted request is `acceptRequest`, and the TICK after it sends LOW. -/
theorem acceptedRequestWritesFiveFields : Obligations.AcceptedRequestWritesFiveFields :=
  fun byte s => ⟨decodeCommand_reqWord byte, fun hidle =>
    ⟨acceptRequest byte s, exec_req_of_idle hidle byte, rfl, onTick (acceptRequest byte s), rfl,
      onTick_acceptRequest_outputLevel byte s⟩⟩

/-- Settles O15: the rejected request raises BusyRequest. -/
theorem rejectedRequestReportsOnly : Obligations.RejectedRequestReportsOnly :=
  fun byte _ => ⟨decodeCommand_reqWord byte, fun hactive => exec_req_of_active hactive byte⟩

/-! ### START (R114) -/

/-- The value a COUNT leaves in the timer (R76, R77). -/
theorem countTimer_tmr (s : State) :
    (countTimer s).tmr = if s.tmr = 0#16 then 0xFFFF#16 else s.tmr - 1#16 := by
  rcases countTimer_cases s with ⟨h0, htmr, -⟩ | ⟨hne, htmr, -⟩
  · rw [htmr, if_pos h0]
  · rw [htmr, if_neg hne]

/-- The COUNT of a START's cycle finds the timer on and loaded with INIT_PRELOAD, after a SERVICE too. -/
theorem cycleEffect_start {inp : CycleInput} (hr : inp.rst = false) (hcnt : inp.cntEn = true)
    (hcmd : decodeCommand inp.cmd = .start) (s : State) :
    cycleEffect inp s = countTimer (startTimer (loadTimer s.initPreload (afterService s))) := by
  simp [cycleEffect, afterCount, afterCommand, hr, hcnt, hcmd, effect, countDue]

/-- No operation but RESET stops the timer (R21). -/
theorem effect_keeps_tmrOn {i : Instr} (hr : i ≠ .reset) {s : State} (hon : s.tmrOn = true) :
    (effect i s).tmrOn = true := by
  cases i with
  | reset => exact absurd rfl hr
  | start => rfl
  | req byte => cases htx : s.txRequest <;> simpa [effect, htx] using hon
  | nop | suspend | resume | illegal5 | illegal6 | illegal7 => exact hon
  | service | reload | ack | tick | count | fire => simpa [effect] using hon

/-- Settles O16: the COUNT of START's cycle acts on the loaded timer, and RESET alone stops it. -/
theorem startLoadsAndRuns : Obligations.StartLoadsAndRuns := by
  have hword (byte : Byte) : decodeCommand (commandOf 0b010#3 byte) = .start := decodeCommand_commandOf _ _
  refine ⟨rfl, hword, fun _ => rfl, fun s byte => ⟨_, cycleWith_eq _ s, ?_⟩, fun i s t hexec hon hoff => ?_⟩
  · rw [cycleEffect_start (inp := ⟨false, true, commandOf 0b010#3 byte⟩) rfl rfl (hword byte), countTimer_tmr]
    rfl
  · cases (exec_eq_effect i s).symm.trans hexec
    by_contra hr
    simp [effect_keeps_tmrOn hr hon] at hoff

/-! ### SUSPEND and RESUME (R115, R116) -/

theorem setDelivery_of_eq {v : Bool} {s : State} (h : s.tickIe = v) : setDelivery v s = s := by
  rw [← h]
  rfl

/-- COUNT neither reads nor writes the delivery bit (R76, R77). -/
theorem countTimer_setDelivery (v : Bool) (s : State) :
    countTimer (setDelivery v s) = setDelivery v (countTimer s) := by
  by_cases h : s.tmr = 0#16
  · rw [countTimer_of_eq h, countTimer_of_eq (s := setDelivery v s) h]
    rfl
  · rw [countTimer_of_ne h, countTimer_of_ne (s := setDelivery v s) h]
    rfl

/-- A command that writes the delivery bit leaves it so at the end of its cycle, and the encoder to the cycle's own
SERVICE. -/
theorem cycleEffect_of_setDelivery {inp : CycleInput} {v : Bool} (hr : inp.rst = false)
    (hcmd : decodeCommand inp.cmd = if v then .resume else .suspend) (s : State) :
    SameEncoder (afterService s) (cycleEffect inp s) ∧ (cycleEffect inp s).tickIe = v := by
  refine ⟨cycleEffect_sameEncoder_of_not_req hr ?_ s, ?_⟩
  · rw [hcmd]
    cases v <;> rfl
  · rw [cycleEffect_tickIe hr, afterCommand, hcmd]
    cases v <;> rfl

/-- An operation that is neither RESET nor contains a TICK leaves the line (R11). -/
theorem effect_outputLevel {i : Instr} (hr : i ≠ .reset) (ht : isTick i = false) (s : State) :
    (effect i s).outputLevel = s.outputLevel := by
  rcases effect_encoder_cases i hr ht s with same | ⟨byte, -, -, haccept⟩
  · exact same.outputLevel
  · rw [haccept, acceptRequest_outputLevel]

/-- Settles O17: SERVICE comes before the command that clears the bit, and COUNT does not look at it. -/
theorem suspendStopsDelivery : Obligations.SuspendStopsDelivery := by
  refine ⟨rfl, fun _ => decodeCommand_commandOf _ _, fun _ => rfl,
    fun s hoff => congrArg Host.Outcome.next (setDelivery_of_eq hoff),
    fun s cntEn byte => ⟨_, _, service_if_due_eq s, cycleWith_eq _ s, ?_⟩,
    fun s => ⟨countTimer s, rfl, congrArg Host.Outcome.next (countTimer_setDelivery false s)⟩,
    fun i s t hexec ht hr => ?_⟩
  · obtain ⟨same, hoff⟩ := cycleEffect_of_setDelivery (inp := ⟨false, cntEn, commandOf 0b011#3 byte⟩)
      (v := false) rfl (decodeCommand_commandOf _ _) s
    exact ⟨same.outputLevel, same.pos, same.txRequest, hoff, by simp [serviceDue, hoff]⟩
  · cases (exec_eq_effect i s).symm.trans hexec
    exact effect_outputLevel hr ht s

/-- Settles O18: the command that sets the bit comes after the point of SERVICE in its own cycle. -/
theorem resumeEnablesDelivery : Obligations.ResumeEnablesDelivery := by
  refine ⟨rfl, fun _ => decodeCommand_commandOf _ _, fun _ => rfl,
    fun s hon => congrArg Host.Outcome.next (setDelivery_of_eq hon),
    fun s cntEn byte => ⟨_, cycleWith_eq _ s, ?_⟩⟩
  obtain ⟨same, hon⟩ := cycleEffect_of_setDelivery (inp := ⟨false, cntEn, commandOf 0b100#3 byte⟩) (v := true)
    rfl (decodeCommand_commandOf _ _) s
  refine ⟨hon, by simp [serviceDue, hon], fun hoff => ?_⟩
  rw [afterService_of_not_due (by simp [serviceDue, hoff])] at same
  exact ⟨same.outputLevel, same.pos, same.txRequest⟩

end Sys2Proof.Machine
end

section
/-! The family of spec/70_reset_and_hazards.md: RESET and the cycle with `rst` = 1 (R150, R151), and the firing that
finds the tick pending (R160). -/
namespace Sys2Proof.Machine
open Sys2Proof

/-! ### RESET (R150, R151) -/

/-- Settles O8: `rst` is asked first, and RESET is then the whole cycle. -/
theorem resetDominates : Obligations.ResetDominates :=
  ⟨fun _ _ _ => if_pos rfl, rfl⟩

/-- RESET after RESET makes one more draw of `payload_byte` and changes nothing else. -/
theorem resetState_resetState (s : State) :
    resetState (resetState s) =
      { resetState s with payloadByte := Config.resetPayload (s.draws + 1), draws := s.draws + 2 } := rfl

/-- Settles O11: the request falls and a fault bit is cleared by no other operation, as R12 and R24 have it. -/
theorem resetOperation : Obligations.ResetOperation := by
  refine ⟨fun ev hev => by rw [decodeEvent_eq, if_pos hev], fun inp s hrst => if_pos hrst,
    fun s => ⟨_, _, resetState s, rfl, rfl, _, _, congrArg Host.Outcome.next (resetState_resetState s)⟩,
    fun i s t hexec => ?_⟩
  cases (exec_eq_effect i s).symm.trans hexec
  refine ⟨fun hactive hidle hpos => ?_, fun hcleared => ?_⟩
  · rcases reset_or_lastTick_of_txRequest_falls hactive hidle with hreset | ⟨-, hlast⟩
    · exact hreset
    · exact absurd hlast hpos
  · by_contra hreset
    exact hcleared (effect_keeps_faults hreset s)

/-! ### A firing that finds the tick pending (R160) -/

/-- FIRE on a pending tick wraps the timer and does nothing else. -/
theorem fireTimer_of_pending {s : State} (hpending : s.tickPending = true) : fireTimer s = loadTimer 0xFFFF#16 s := by
  simp [fireTimer, setPending, loadTimer, ← hpending]

/-- With delivery enabled nothing is pending after the point of SERVICE (R81, R118). -/
theorem afterService_tickPending_of_delivery {s : State} (hie : s.tickIe = true) :
    (afterService s).tickPending = false := by
  cases hpending : s.tickPending with
  | true => rw [afterService_of_due (by simp [serviceDue, hpending, hie]), serviceTick_tickPending]
  | false => rw [afterService_of_not_due (by simp [serviceDue, hpending]), hpending]

/-- No host command writes the pending bit (R22). -/
theorem effect_command_tickPending {i : Instr} (hi : i.isCommand = true) (s : State) :
    (effect i s).tickPending = s.tickPending := by
  cases i with
  | req byte => cases htx : s.txRequest <;> simp [effect, htx]
  | nop | start | suspend | resume | illegal5 | illegal6 | illegal7 => rfl
  | reset | service | reload | ack | tick | count | fire => exact absurd hi Bool.false_ne_true

/-- Settles O26: COUNT at 0 is the firing that changes the timer alone; with delivery enabled the SERVICE leaves nothing
pending and the command keeps it so. -/
theorem firingWhilePendingIsLost : Obligations.FiringWhilePendingIsLost := by
  refine ⟨fun s hpending h0 => ?_, fun s s1 s2 cmd hie hservice hcommand => ?_⟩
  · exact congrArg Host.Outcome.next ((countTimer_of_eq h0).trans (fireTimer_of_pending hpending))
  · cases (service_if_due_eq s).symm.trans hservice
    cases (exec_eq_effect _ _).symm.trans hcommand
    rw [effect_command_tickPending (decodeCommand_isCommand cmd), afterService_tickPending_of_delivery hie]

end Sys2Proof.Machine
end

section
/-! The statements of the whole machine: the two code formats read back, the invariant, the interleaving of R119, the
timing of the ticks (R84), the cells on the line (R64, R65, R100), what is never observed (R13, R14), and what runs of
cycles leave alone. -/
namespace Sys2Proof.Machine
open Sys2Proof

/-! ### Decode and encode (R56 to R62) -/

/-- Encoding what a command word decodes to gives the word back, its operand kept for REQ and cleared for every other
operation (R59, R61). -/
theorem encode_decodeCommand (cmd : CommandWord) :
    encode (decodeCommand cmd) =
      .command (commandOf (opcodeOf cmd) (if opcodeOf cmd = 1#3 then operandOf cmd else 0#8)) := by
  unfold decodeCommand
  rcases opcode_cases (opcodeOf cmd) with h | h | h | h | h | h | h | h <;> rw [h] <;> rfl

/-- Only REQ's opcode decodes to a request (R58). -/
theorem opcodeOf_of_decodeCommand_req {cmd : CommandWord} {byte : Byte} (h : decodeCommand cmd = .req byte) :
    opcodeOf cmd = 1#3 := by
  have henc := encode_decodeCommand cmd
  rw [h] at henc
  simpa using (congrArg opcodeOf (Code.command.inj henc)).symm

/-- An operation with an encoding of its own is read back from its code word (R56). -/
theorem decode_encode {i : Instr} (hi : i.WellFormed = true) : decode (encode i) = .ok i := by
  cases i with
  | nop | req | start | suspend | resume | illegal5 | illegal6 | illegal7 =>
    exact congrArg Except.ok (decodeCommand_commandOf _ _)
  | reset | service | count => rfl
  | reload | ack | tick | fire => exact absurd hi Bool.false_ne_true

/-- Settles O3: an operation is read back from its code word, and the fields of a command word are its code word's. -/
theorem decodeOfEncode : Obligations.DecodeOfEncode := by
  refine ⟨fun i hi => decode_encode hi, fun cmd byte hreq => ?_, fun cmd hmask => ?_⟩
  · rw [← hreq, encode_decodeCommand, if_pos (opcodeOf_of_decodeCommand_req hreq), commandOf_fields]
  · have hop : opcodeOf cmd ≠ 1#3 := fun h => hmask ((mask_eq_commandOf_iff cmd 1#3).mpr h)
    rw [encode_decodeCommand, if_neg hop, mask_eq_commandOf]

/-- Settles O5: the decoders on the words of the table. -/
theorem tableWordsDecode : Obligations.TableWordsDecode := by
  unfold Obligations.TableWordsDecode
  decide

/-! ### The invariant (R29, R63, R67, R154) -/

/-- The part of the invariant that speaks of the encoder and the line. -/
def EncoderInv (s : State) : Prop :=
  (s.txRequest = false → IdleInv s) ∧ (s.txRequest = true → ActiveInv s)

theorem inv_iff (s : State) : s.Inv ↔ EncoderInv s ∧ (s.tmrOn = false → s.tickPending = false) :=
  and_assoc.symm

/-- The encoder's part is read from the encoder alone. -/
theorem SameEncoder.encoderInv {s t : State} (same : SameEncoder s t) (h : EncoderInv s) : EncoderInv t := by
  simp only [EncoderInv, IdleInv, ActiveInv, same.outputLevel, same.txRequest, same.payloadByte, same.framePhase,
    same.bitIndex, same.halfPhase, same.pos] at h ⊢
  exact h

/-- An idle machine at place 0 with its line LOW meets the encoder's part. -/
theorem encoderInv_of_start {s : State} (hidle : s.txRequest = false) (hbit : s.bitIndex = 0#3)
    (hhalf : s.halfPhase = .firstHalf) (hlow : s.outputLevel = .low) : EncoderInv s :=
  ⟨fun _ => ⟨hbit, hhalf, fun _ => hlow, .inl hlow⟩, fun htx => by simp [hidle] at htx⟩

/-- A request just accepted stands at place 0, whatever the line holds (R105). -/
theorem acceptRequest_encoderInv (byte : Byte) (s : State) : EncoderInv (acceptRequest byte s) :=
  ⟨fun hidle => by simp at hidle, fun _ => .inl (acceptRequest_pos byte s)⟩

/-- Place 16 is the first half of the payload's first cell (R17). -/
theorem fields_of_pos_eq_16 {s : State} (h : s.pos = 16#5) :
    s.framePhase = .sendingPayload ∧ s.bitIndex = 0#3 ∧ s.halfPhase = .firstHalf := by
  have places : ∀ (phase : FramePhase) (index : BitIndex) (half : HalfPhase), framePosition phase index half = 16#5 →
      phase = .sendingPayload ∧ index = 0#3 ∧ half = .firstHalf := by
    intro phase index half
    cases phase <;> cases half <;> revert index <;> decide
  exact places _ _ _ h

/-- TICK keeps the encoder's part: idle it forces the line LOW, before place 31 it sends the half-cell it leaves behind,
at place 31 the line keeps the last half-cell, which is the payload's bit 0 (R67). -/
theorem onTick_encoderInv {s : State} (h : EncoderInv s) : EncoderInv (onTick s) := by
  obtain ⟨idle, active⟩ := h
  cases htx : s.txRequest with
  | false =>
    obtain ⟨hbit, hhalf, -, -⟩ := idle htx
    rw [onTick_of_idle htx]
    exact encoderInv_of_start htx hbit hhalf rfl
  | true =>
    have hline := onTick_outputLevel s htx (active htx)
    obtain ⟨running, last⟩ := onTick_pos s htx
    by_cases h31 : s.pos = 31#5
    · obtain ⟨hpos, hidle⟩ := last h31
      obtain ⟨hphase, hbit, hhalf⟩ := fields_of_pos_eq_16 hpos
      rw [h31, halfCell_of_ge _ _ (by decide) (by decide)] at hline
      refine ⟨fun _ => ⟨hbit, hhalf, fun hpre => ?_, .inr ?_⟩, fun htx' => ?_⟩
      · simp [hphase] at hpre
      · rw [onTick_payloadByte]
        exact hline
      · simp [hidle] at htx'
    · obtain ⟨hpos, hactive⟩ := running h31
      refine ⟨fun hidle => ?_, fun _ => .inr ?_⟩
      · simp [hactive] at hidle
      · rw [hpos, pos_succ_toNat _ h31, onTick_payloadByte, hline, Nat.add_sub_cancel]

/-- Every operation keeps the encoder's part. -/
theorem effect_encoderInv (i : Instr) {s : State} (h : EncoderInv s) : EncoderInv (effect i s) := by
  by_cases hr : i = .reset
  · subst hr
    exact encoderInv_of_start rfl rfl rfl rfl
  cases ht : isTick i with
  | true =>
    obtain rfl | rfl : i = .tick ∨ i = .service := by simpa [isTick] using ht
    · exact onTick_encoderInv h
    · exact (serviceTick_sameEncoder s).encoderInv (onTick_encoderInv h)
  | false =>
    rcases effect_encoder_cases i hr ht s with same | ⟨byte, -, -, haccept⟩
    · exact same.encoderInv h
    · rw [haccept]
      exact acceptRequest_encoderInv byte s

/-- With the timer on where it counts or fires, no operation leaves a tick pending before START (R154). -/
theorem effect_not_pending_before_start {i : Instr} {s : State} (hi : i = .count ∨ i = .fire → s.tmrOn = true)
    (h : s.tmrOn = false → s.tickPending = false) :
    (effect i s).tmrOn = false → (effect i s).tickPending = false := by
  cases i with
  | req byte => cases htx : s.txRequest <;> simpa [effect, htx] using h
  | count | fire => simp [effect, hi]
  | start | reset | service | ack => simp [effect]
  | nop | suspend | resume | illegal5 | illegal6 | illegal7 | reload | tick => simpa [effect] using h

/-- Every operation keeps the invariant where it can happen. -/
theorem effect_inv {i : Instr} {s : State} (hi : i = .count ∨ i = .fire → s.tmrOn = true) (h : s.Inv) :
    (effect i s).Inv := by
  obtain ⟨henc, hpending⟩ := (inv_iff s).mp h
  exact (inv_iff _).mpr ⟨effect_encoderInv i henc, effect_not_pending_before_start hi hpending⟩

theorem sampleInput_inv {s : State} (h : s.Inv) : (sampleInput s).Inv := by
  obtain ⟨henc, hpending⟩ := (inv_iff s).mp h
  exact (inv_iff _).mpr ⟨(sampleInput_sameEncoder s).encoderInv henc, by simpa using hpending⟩

/-- The operations of a cycle keep the invariant one after the other: COUNT happens with the timer on alone (R118). -/
theorem cycleEffect_inv (inp : CycleInput) {s : State} (h : s.Inv) : (cycleEffect inp s).Inv := by
  have served : (afterService s).Inv := by
    unfold afterService
    split
    · exact effect_inv (i := .service) (by simp) h
    · exact h
  have hcmd : decodeCommand inp.cmd = .count ∨ decodeCommand inp.cmd = .fire → (afterService s).tmrOn = true := by
    have := decodeCommand_isCommand inp.cmd
    rintro (e | e) <;> simp [e, Instr.isCommand] at this
  have commanded : (afterCommand inp s).Inv := effect_inv hcmd served
  unfold cycleEffect afterCount
  split
  · exact effect_inv (i := .reset) (by simp) h
  · split
    next hcount =>
      have hon : (afterCommand inp s).tmrOn = true := (Bool.and_eq_true_iff.mp hcount).1
      exact effect_inv (i := .count) (fun _ => hon) commanded
    next => exact commanded

/-- Settles O43: every operation keeps the two parts of the invariant, and a cycle is made of operations. -/
theorem stepKeepsTheInvariant : Obligations.StepKeepsTheInvariant := by
  refine ⟨fun s t hinv hstep => ?_, fun i s t hi hinv hexec => ?_, fun s byte hinv hidle =>
    ⟨acceptRequest byte s, exec_req_of_idle hidle byte, ?_⟩⟩
  · cases (step_eq s).symm.trans hstep
    exact cycleEffect_inv _ (sampleInput_inv hinv)
  · cases (exec_eq_effect i s).symm.trans hexec
    exact effect_inv hi hinv
  · obtain ⟨idle, -, -⟩ := hinv
    obtain ⟨hbit, hhalf, -, -⟩ := idle hidle
    exact ⟨hbit.symm, hhalf.symm⟩

/-- Settles O42: after reset the machine is idle at place 0, the line LOW and nothing pending. -/
theorem invariantAtReset : Obligations.InvariantAtReset :=
  (inv_iff _).mpr ⟨encoderInv_of_start rfl rfl rfl rfl, fun _ => rfl⟩

/-! ### Next states and the untimed view (R118, R119, R129) -/

/-- Settles O9: the next states are `effect`, `cycleEffect` and the last state of the run. -/
theorem everyStepHasANextState : Obligations.EveryStepHasANextState :=
  ⟨fun i s => ⟨_, exec_eq_effect i s⟩, fun s => ⟨_, step_eq s⟩, runCycles_next⟩

/-- The operations of the cycle with the given inputs, in their order. -/
def operationsOf (inp : CycleInput) (s : State) : List Instr :=
  cycleOps (eventVector inp s (afterCommand inp s)) inp.cmd

theorem operationsOf_eq (inp : CycleInput) (s : State) :
    operationsOf inp s =
      if inp.rst then [.reset]
      else (if serviceDue s then [.service] else []) ++ [decodeCommand inp.cmd] ++
        (if countDue inp (afterCommand inp s) then [.count] else []) :=
  cycleOps_eventVector inp s (afterCommand inp s)

/-- Run one after the other they are the cycle (R62, R118). -/
theorem runOps_operationsOf (inp : CycleInput) (s : State) :
    runOps (operationsOf inp s) s = .next (cycleEffect inp s) := by
  obtain ⟨-, -, hcycle⟩ := eventVectorSelectsTheCycle
  exact (hcycle inp s _ _ (service_if_due_eq s) (exec_eq_effect _ _)).symm.trans (cycleWith_eq inp s)

theorem opsEnabled_cons (i : Instr) (ops : List Instr) (s : State) :
    opsEnabled (i :: ops) s = (opEnabled i s && opsEnabled ops (effect i s)) := by
  rw [opsEnabled, exec_eq_effect]

/-- The untimed view lets a host command happen always (R119). -/
theorem opEnabled_of_isCommand {i : Instr} (hi : i.isCommand = true) (s : State) : opEnabled i s = true := by
  cases i with
  | nop | req | start | suspend | resume | illegal5 | illegal6 | illegal7 => rfl
  | reset | service | reload | ack | tick | count | fire => exact absurd hi Bool.false_ne_true

/-- From the point of the host command on, the operations of a cycle are enabled: COUNT is selected with the timer on
alone. -/
theorem opsEnabled_command_count (inp : CycleInput) (s : State) :
    opsEnabled (decodeCommand inp.cmd :: if countDue inp (afterCommand inp s) then [.count] else [])
      (afterService s) = true := by
  rw [opsEnabled_cons, opEnabled_of_isCommand (decodeCommand_isCommand inp.cmd), Bool.true_and]
  change opsEnabled _ (afterCommand inp s) = true
  split
  next hcount =>
    have hon : (afterCommand inp s).tmrOn = true := (Bool.and_eq_true_iff.mp hcount).1
    exact (opsEnabled_cons .count [] _).trans (Bool.and_eq_true_iff.mpr ⟨hon, rfl⟩)
  next => rfl

/-- Every operation of a cycle is enabled in the state it finds (R119). -/
theorem opsEnabled_operationsOf (inp : CycleInput) (s : State) : opsEnabled (operationsOf inp s) s = true := by
  have command_on := opsEnabled_command_count inp s
  rw [operationsOf_eq]
  split
  · rfl
  · cases hdue : serviceDue s with
    | false => simpa [afterService_of_not_due hdue] using command_on
    | true =>
      rw [afterService_of_due hdue] at command_on
      exact (opsEnabled_cons .service _ s).trans (Bool.and_eq_true_iff.mpr ⟨hdue, command_on⟩)

/-- A cycle selects one to three operations, none of them a part of another (R56, R62). -/
theorem operationsOf_shape (inp : CycleInput) (s : State) :
    operationsOf inp s ≠ [] ∧ (operationsOf inp s).length ≤ 3 ∧ ∀ i ∈ operationsOf inp s, i.WellFormed = true := by
  rw [operationsOf_eq]
  split
  · exact ⟨List.cons_ne_nil _ _, by decide, by decide⟩
  · refine ⟨by simp, ?_, ?_⟩
    · split <;> split <;> simp
    · simp only [List.mem_append, List.mem_ite_nil_right, List.mem_singleton]
      rintro i ((⟨-, rfl⟩ | rfl) | ⟨-, rfl⟩)
      · rfl
      · exact wellFormed_of_isCommand (decodeCommand_isCommand inp.cmd)
      · rfl

/-- Settles O10: the operations of the cycle, as its event vector selects them. -/
theorem everyCycleIsAnInterleaving : Obligations.EveryCycleIsAnInterleaving := by
  intro s
  obtain ⟨hne, hlen, hwf⟩ := operationsOf_shape (nextInput s) (sampleInput s)
  exact ⟨_, _, step_eq s, hne, hlen, hwf, opsEnabled_operationsOf _ _, runOps_operationsOf _ _⟩

/-- Settles O7: the sampling takes the listed input or makes a draw, and the cycle is R118's on it. -/
theorem stepRunsDecodedCommand : Obligations.StepRunsDecodedCommand := by
  refine ⟨fun s => ?_, fun s inp rest h => ?_, fun s hr => if_pos hr, fun s i hr hdecode => ?_⟩
  · rcases sampleInput_cases s with ⟨inp, rest, -, -, h⟩ | ⟨-, h⟩
    · exact ⟨rest, s.draws, h⟩
    · exact ⟨s.inputs, s.draws + 1, h⟩
  · simp [nextInput, sampleInput, h]
  · have hcmd : decodeCommand (nextInput s).cmd = i := Except.ok.inj hdecode
    refine ⟨hcmd ▸ wellFormed_of_isCommand (decodeCommand_isCommand _), ?_⟩
    rw [step, cycle, cycleWith_of_decodeCommand hr hcmd, sampleInput_tickPending, sampleInput_tickIe]

end Sys2Proof.Machine
end

section
/-! More statements of the whole machine: the place and the cells of TICK (R64, R65, R100), what is never observed (R13,
R14), who writes which element, the causes of a fault (R129), and command streams (R69). -/
namespace Sys2Proof.Machine
open Sys2Proof

/-! ### The place of a TICK and the cells of a bit (R64, R65, R100) -/

/-- Bit 0 of the place is the half of the cell (R17). -/
theorem pos_getLsbD_zero (s : State) : s.pos.getLsbD 0 = s.halfPhase.bits.getLsbD 0 := by
  rw [State.pos, framePosition, BitVec.getLsbD_append, if_pos (by decide)]

/-- A first half drives the complement of the data bit (R94). -/
theorem onTick_outputLevel_of_firstHalf {s : State} (htx : s.txRequest = true) (hhalf : s.halfPhase = .firstHalf) :
    (onTick s).outputLevel = Level.ofBit (!dataBit s) := by
  rw [onTick_of_firstHalf htx hhalf, tickFirstHalf, Level.inv_ofBit]

/-- A second half inverts the line (R96). -/
theorem onTick_inverts_of_secondHalf {s : State} (htx : s.txRequest = true) (hhalf : s.halfPhase = .secondHalf) :
    (onTick s).outputLevel = s.outputLevel.inv := by
  rw [onTick_of_secondHalf htx hhalf, tickSecondHalf_outputLevel]

/-- Settles O33: the half of the cell is bit 0 of the place, and the place advances as `onTick_pos` says. -/
theorem tickAdvancesThePosition : Obligations.TickAdvancesThePosition := by
  intro s htx
  refine ⟨onTick s, rfl, fun heven => ?_, fun hodd => ?_, onTick_pos s htx⟩
  · rw [pos_getLsbD_zero] at heven
    cases hhalf : s.halfPhase with
    | firstHalf => exact onTick_outputLevel_of_firstHalf htx hhalf
    | secondHalf => simp [hhalf, HalfPhase.bits] at heven
  · rw [pos_getLsbD_zero] at hodd
    cases hhalf : s.halfPhase with
    | firstHalf => simp [hhalf, HalfPhase.bits] at hodd
    | secondHalf =>
      rw [onTick_inverts_of_secondHalf htx hhalf]
      exact Level.inv_ne _

theorem SameEncoder.refl (s : State) : SameEncoder s s := ⟨rfl, rfl, rfl, rfl, rfl, rfl⟩

/-- While a transmission is active, operations that are neither a TICK nor RESET leave the encoder alone. -/
theorem runOps_sameEncoder {ops : List Instr} (hops : ∀ i ∈ ops, isTick i = false ∧ i ≠ .reset) {s : State}
    (htx : s.txRequest = true) : ∃ t, runOps ops s = .next t ∧ SameEncoder s t := by
  induction ops generalizing s with
  | nil => exact ⟨s, rfl, SameEncoder.refl s⟩
  | cons i ops ih =>
    obtain ⟨⟨htick, hreset⟩, hops⟩ := List.forall_mem_cons.mp hops
    have same : SameEncoder s (effect i s) := by
      rcases effect_encoder_cases i hreset htick s with same | ⟨byte, -, hidle, -⟩
      · exact same
      · simp [hidle] at htx
    obtain ⟨t, hrun, hsame⟩ := ih hops (same.txRequest.trans htx)
    exact ⟨t, by rw [runOps, exec_eq_effect, andThen_next, hrun], same.trans hsame⟩

/-- Settles O35: the second TICK inverts the complement that the first one has left on the line. -/
theorem bitIsSentAsComplementThenBit : Obligations.BitIsSentAsComplementThenBit := by
  intro s ops htx hhalf hops
  have hfirst := onTick_of_firstHalf htx hhalf
  have hlevel := onTick_outputLevel_of_firstHalf htx hhalf
  have htx' : (onTick s).txRequest = true := by rw [hfirst, tickFirstHalf_txRequest, htx]
  have hhalf' : (onTick s).halfPhase = .secondHalf := by rw [hfirst, tickFirstHalf_halfPhase]
  obtain ⟨u, hrun, same⟩ := runOps_sameEncoder hops htx'
  refine ⟨onTick s, u, onTick u, rfl, hrun, rfl, hlevel, same.outputLevel, ?_⟩
  rw [onTick_inverts_of_secondHalf (same.txRequest.trans htx') (same.halfPhase.trans hhalf'), same.outputLevel, hlevel,
    Level.inv_ofBit, Bool.not_not]

/-- The expansion of a byte gives the byte back (R65). -/
theorem manchester_injective {byte byte' : Byte} (h : manchester byte = manchester byte') : byte = byte' := by
  apply BitVec.eq_of_getLsbD_eq
  intro i hi
  rw [← (manchester_getLsbD byte i hi).1, ← (manchester_getLsbD byte' i hi).1, h]

/-- Settles O36: the two half-cells of each bit, counted from the first one sent, and the preamble's. -/
theorem byteExpansion : Obligations.ByteExpansion := by
  have preamble_cells : manchester Config.preamble = 0x5555#16 := by decide
  refine ⟨fun byte i hi => ?_, fun _ _ => manchester_injective, by decide, by decide, by decide,
    fun payload => by rw [frameCells, preamble_cells]⟩
  obtain ⟨hsecond, hfirst⟩ := manchester_getLsbD byte (7 - i) (by omega)
  rw [show 15 - 2 * i = 2 * (7 - i) + 1 by omega, show 14 - 2 * i = 2 * (7 - i) by omega]
  exact ⟨hfirst, hsecond⟩

/-! ### A payload byte that is not observed (R13, R14) -/

/-- The state with another payload byte. -/
def setPayload (payload : Byte) (s : State) : State := { s with payloadByte := payload }

/-- A second half does not read the payload byte (R96). -/
theorem tickSecondHalf_setPayload (payload : Byte) (s : State) :
    tickSecondHalf (setPayload payload s) = setPayload payload (tickSecondHalf s) := by
  by_cases h7 : s.bitIndex = 7#3
  · rw [tickSecondHalf_of_eq h7, tickSecondHalf_of_eq (s := setPayload payload s) h7]
    rfl
  · rw [tickSecondHalf_of_ne h7, tickSecondHalf_of_ne (s := setPayload payload s) h7]
    rfl

/-- A first half of the preamble does not read the payload byte (R92). -/
theorem tickFirstHalf_setPayload {s : State} (hphase : s.framePhase = .sendingPreamble) (payload : Byte) :
    tickFirstHalf (setPayload payload s) = setPayload payload (tickFirstHalf s) := by
  rw [tickFirstHalf, tickFirstHalf, dataBit_of_preamble hphase, dataBit_of_preamble (s := setPayload payload s) hphase]
  rfl

/-- TICK does not read the payload byte while idle or in the preamble (R91, R92). -/
theorem onTick_setPayload {s : State} (h : s.txRequest = false ∨ s.framePhase = .sendingPreamble) (payload : Byte) :
    onTick (setPayload payload s) = setPayload payload (onTick s) := by
  rcases onTick_cases s with ⟨htx, htick⟩ | ⟨htx, hhalf, htick⟩ | ⟨htx, hhalf, htick⟩ <;> rw [htick]
  · exact onTick_of_idle (s := setPayload payload s) htx
  · have hphase : s.framePhase = .sendingPreamble := h.resolve_left (by simp [htx])
    rw [onTick_of_firstHalf (s := setPayload payload s) htx hhalf, tickFirstHalf_setPayload hphase]
  · rw [onTick_of_secondHalf (s := setPayload payload s) htx hhalf, tickSecondHalf_setPayload]

/-- Settles O40: TICK commutes with the change of the byte. -/
theorem preambleIgnoresThePayload : Obligations.PreambleIgnoresThePayload :=
  fun s payload h => ⟨onTick s, rfl, congrArg Host.Outcome.next (onTick_setPayload h payload)⟩

/-- The two states are equal, or both are idle and differ in the payload byte alone. -/
def AgreeButIdlePayload (s t : State) : Prop :=
  t = s ∨ s.txRequest = false ∧ ∃ payload, t = setPayload payload s

theorem countTimer_setPayload (payload : Byte) (s : State) :
    countTimer (setPayload payload s) = setPayload payload (countTimer s) := by
  by_cases h : s.tmr = 0#16
  · rw [countTimer_of_eq h, countTimer_of_eq (s := setPayload payload s) h]
    rfl
  · rw [countTimer_of_ne h, countTimer_of_ne (s := setPayload payload s) h]
    rfl

theorem serviceTick_setPayload {s : State} (hidle : s.txRequest = false) (payload : Byte) :
    serviceTick (setPayload payload s) = setPayload payload (serviceTick s) := by
  rw [serviceTick_eq, serviceTick_eq, onTick_setPayload (.inl hidle)]
  rfl

/-- Every operation keeps the agreement; REQ and RESET write the byte and make the states equal (R13). -/
theorem effect_agree (i : Instr) {s t : State} (h : AgreeButIdlePayload s t) :
    AgreeButIdlePayload (effect i s) (effect i t) := by
  rcases h with rfl | ⟨hidle, payload, rfl⟩
  · exact .inl rfl
  · cases i with
    | req byte => exact .inl (by simp [effect, setPayload, acceptRequest, hidle])
    | reset => exact .inl rfl
    | tick => exact .inr ⟨by simp [effect, onTick_txRequest, hidle], payload, onTick_setPayload (.inl hidle) payload⟩
    | service =>
      exact .inr ⟨by simp [effect, serviceTick_txRequest, hidle], payload, serviceTick_setPayload hidle payload⟩
    | count => exact .inr ⟨by simpa [effect] using hidle, payload, countTimer_setPayload payload s⟩
    | nop | start | suspend | resume | illegal5 | illegal6 | illegal7 | reload | ack | fire =>
      exact .inr ⟨hidle, payload, rfl⟩

/-- What selects the operations of a cycle is not the payload byte. -/
theorem AgreeButIdlePayload.selection {s t : State} (h : AgreeButIdlePayload s t) :
    nextInput t = nextInput s ∧ serviceDue t = serviceDue s ∧ ∀ inp, countDue inp t = countDue inp s := by
  rcases h with rfl | ⟨-, payload, rfl⟩ <;> exact ⟨rfl, rfl, fun _ => rfl⟩

/-- An operation done only when selected keeps the agreement. -/
theorem AgreeButIdlePayload.effect_if {s t : State} (h : AgreeButIdlePayload s t) (due : Bool) (i : Instr) :
    AgreeButIdlePayload (if due then effect i s else s) (if due then effect i t else t) := by
  cases due with
  | false => exact h
  | true => exact effect_agree i h

/-- A cycle with the same inputs keeps the agreement. -/
theorem cycleEffect_agree (inp : CycleInput) {s t : State} (h : AgreeButIdlePayload s t) :
    AgreeButIdlePayload (cycleEffect inp s) (cycleEffect inp t) := by
  obtain ⟨-, hdue, -⟩ := h.selection
  have served : AgreeButIdlePayload (afterService s) (afterService t) := by
    rw [afterService, afterService, hdue]
    exact h.effect_if (serviceDue s) .service
  have commanded : AgreeButIdlePayload (afterCommand inp s) (afterCommand inp t) :=
    effect_agree (decodeCommand inp.cmd) served
  obtain ⟨-, -, hcount⟩ := commanded.selection
  unfold cycleEffect afterCount
  split
  · exact effect_agree .reset h
  · rw [hcount]
    exact commanded.effect_if (countDue inp (afterCommand inp s)) .count

theorem sampleInput_agree {s t : State} (h : AgreeButIdlePayload s t) :
    AgreeButIdlePayload (sampleInput s) (sampleInput t) := by
  rcases h with rfl | ⟨hidle, payload, rfl⟩
  · exact .inl rfl
  · refine .inr ⟨by simpa using hidle, payload, ?_⟩
    cases hin : s.inputs <;> simp [sampleInput, setPayload, hin]

/-- Two runs from agreeing states agree at their ends. -/
theorem runCycles_agree (n : Nat) {s t : State} (h : AgreeButIdlePayload s t) :
    ∃ s' t', runCycles n s = .next s' ∧ runCycles n t = .next t' ∧ AgreeButIdlePayload s' t' := by
  induction n generalizing s t with
  | zero => exact ⟨s, t, rfl, rfl, h⟩
  | succ n ih =>
    obtain ⟨hinput, -, -⟩ := h.selection
    rw [runCycles_succ, runCycles_succ, hinput]
    exact ih (cycleEffect_agree _ (sampleInput_agree h))

/-- Settles O41: the runs agree all along, and the ports do not show the byte. -/
theorem payloadBeforeRequestIsUnobservable : Obligations.PayloadBeforeRequestIsUnobservable := by
  intro s payload n hidle
  obtain ⟨t, t', hrun, hrun', hagree⟩ := runCycles_agree n (.inr ⟨hidle, payload, rfl⟩)
  refine ⟨t, t', hrun, hrun', ?_⟩
  rcases hagree with rfl | ⟨hidle', payload', rfl⟩
  · exact ⟨rfl, rfl, fun _ => rfl⟩
  · exact ⟨rfl, rfl, fun htx => by simp [hidle'] at htx⟩

/-! ### Who writes which element (R10) -/

/-- The encoder is written by REQ, by TICK and its whole, and by RESET. -/
theorem effect_sameEncoder_of_not_writer {i : Instr} (hi : ¬ (isReq i = true ∨ isTick i = true ∨ i = .reset))
    (s : State) : SameEncoder s (effect i s) := by
  obtain ⟨hreq, htick, hreset⟩ := by simpa only [not_or, Bool.not_eq_true] using hi
  rcases effect_encoder_cases i hreset htick s with same | ⟨byte, rfl, -, -⟩
  · exact same
  · simp [isReq] at hreq

/-- The payload byte is written by REQ and RESET, not by TICK (R13, R90). -/
theorem effect_payloadByte {i : Instr} (hi : ¬ (isReq i = true ∨ i = .reset)) (s : State) :
    (effect i s).payloadByte = s.payloadByte := by
  cases ht : isTick i with
  | true =>
    obtain rfl | rfl : i = .tick ∨ i = .service := by simpa [isTick] using ht
    · exact onTick_payloadByte s
    · exact serviceTick_payloadByte s
  | false => exact (effect_sameEncoder_of_not_writer (by simpa [ht] using hi) s).payloadByte

/-- The timer is written by COUNT, START and RELOAD, their wholes and parts, and RESET (R19). -/
theorem effect_tmr {i : Instr}
    (hi : ¬ (i = .count ∨ i = .fire ∨ i = .reload ∨ i = .service ∨ i = .start ∨ i = .reset)) (s : State) :
    (effect i s).tmr = s.tmr := by
  cases i with
  | count | fire | reload | service | start | reset => simp at hi
  | req byte => cases htx : s.txRequest <;> simp [effect, htx]
  | nop | suspend | resume | illegal5 | illegal6 | illegal7 | ack => rfl
  | tick => exact onTick_tmr s

/-- The timer's switch is written by START and RESET (R21). -/
theorem effect_tmrOn {i : Instr} (hi : ¬ (i = .start ∨ i = .reset)) (s : State) : (effect i s).tmrOn = s.tmrOn := by
  cases i with
  | start | reset => simp at hi
  | req byte => cases htx : s.txRequest <;> simp [effect, htx]
  | nop | suspend | resume | illegal5 | illegal6 | illegal7 | reload | ack | fire => rfl
  | service | tick | count => simp [effect]

/-- The pending bit is written by COUNT and ACK, their wholes and parts, and RESET (R22). -/
theorem effect_tickPending {i : Instr} (hi : ¬ (i = .count ∨ i = .fire ∨ i = .ack ∨ i = .service ∨ i = .reset))
    (s : State) : (effect i s).tickPending = s.tickPending := by
  cases i with
  | count | fire | ack | service | reset => simp at hi
  | req byte => cases htx : s.txRequest <;> simp [effect, htx]
  | nop | start | suspend | resume | illegal5 | illegal6 | illegal7 | reload => rfl
  | tick => exact onTick_tickPending s

/-- The delivery bit is written by SUSPEND, RESUME and RESET (R23). -/
theorem effect_tickIe {i : Instr} (hi : ¬ (i = .suspend ∨ i = .resume ∨ i = .reset)) (s : State) :
    (effect i s).tickIe = s.tickIe := by
  cases i with
  | suspend | resume | reset => simp at hi
  | req byte => cases htx : s.txRequest <;> simp [effect, htx]
  | nop | start | illegal5 | illegal6 | illegal7 | reload | ack | fire => rfl
  | service | tick | count => simp [effect]

/-- No operation writes the parameters or the inputs still to come (R6, R26). -/
theorem effect_parameters (i : Instr) (s : State) :
    (effect i s).initPreload = s.initPreload ∧ (effect i s).handlerReload = s.handlerReload ∧
      (effect i s).inputs = s.inputs := by
  cases i with
  | req byte => cases htx : s.txRequest <;> simp [effect, htx]
  | nop | start | suspend | resume | illegal5 | illegal6 | illegal7 | reset | reload | ack | fire =>
    exact ⟨rfl, rfl, rfl⟩
  | service | tick | count => simp [effect]

/-- A fault bit is written by its cause and by RESET (R24, R125). -/
theorem effect_fault_bits_of_not_cause (i : Instr) (s : State) :
    (¬ (isReq i = true ∨ i = .reset) → (effect i s).fault.getLsbD 0 = s.fault.getLsbD 0) ∧
      (¬ (isIllegal i = true ∨ i = .reset) → (effect i s).fault.getLsbD 1 = s.fault.getLsbD 1) := by
  refine ⟨fun hi => ?_, fun hi => ?_⟩ <;> obtain ⟨hcause, hreset⟩ := not_or.mp hi
  · rw [(effect_fault_bits hreset s).1, Bool.eq_false_iff.mpr hcause, Bool.false_and, Bool.or_false]
  · rw [(effect_fault_bits hreset s).2, Bool.eq_false_iff.mpr hcause, Bool.or_false]

/-- Settles O44: an operation that is not among the writers of an element leaves it. -/
theorem elementsAreWrittenByTheirOperations : Obligations.ElementsAreWrittenByTheirOperations := by
  intro i s t hexec
  cases (exec_eq_effect i s).symm.trans hexec
  obtain ⟨hbusy, hillegal⟩ := effect_fault_bits_of_not_cause i s
  refine ⟨not_imp_comm.mp fun hi => ?_, not_imp_comm.mp fun hi => (effect_sameEncoder_of_not_writer hi s).txRequest,
    not_imp_comm.mp fun hi => effect_payloadByte hi s,
    not_imp_comm.mp fun hi => (effect_sameEncoder_of_not_writer hi s).framePhase,
    not_imp_comm.mp fun hi => (effect_sameEncoder_of_not_writer hi s).bitIndex,
    not_imp_comm.mp fun hi => (effect_sameEncoder_of_not_writer hi s).halfPhase,
    not_imp_comm.mp fun hi => effect_tmr hi s, not_imp_comm.mp fun hi => effect_tmrOn hi s,
    not_imp_comm.mp fun hi => effect_tickPending hi s, not_imp_comm.mp fun hi => effect_tickIe hi s,
    not_imp_comm.mp hbusy, not_imp_comm.mp hillegal, effect_parameters i s⟩
  obtain ⟨htick, hreset⟩ := not_or.mp hi
  exact effect_outputLevel hreset (Bool.eq_false_iff.mpr htick) s

/-! ### The causes of a fault (R129) -/

/-- Settles O47: the two causes are a REQ that finds a transmission and a reserved opcode, and each raises its own
bit. -/
theorem onlyTwoFaultCauses : Obligations.OnlyTwoFaultCauses := by
  intro i s t hexec hreset
  cases (exec_eq_effect i s).symm.trans hexec
  rcases effect_fault_cases hreset s with ⟨hbusy, -, hf⟩ | ⟨-, hillegal, hf⟩ | ⟨-, -, hf⟩ <;> rw [hf]
  · obtain ⟨hreq, htx⟩ := Bool.and_eq_true_iff.mp hbusy
    exact ⟨by simp [hreq, htx], .inr (setFaultBit_busyRequest_bits _).2⟩
  · have hreq : isReq i = false := by
      obtain (rfl | rfl) | rfl : (i = .illegal5 ∨ i = .illegal6) ∨ i = .illegal7 := by simpa [isIllegal] using hillegal
      all_goals rfl
    exact ⟨by simp [hreq, hillegal], .inl (setFaultBit_illegalCommand_bits _).1⟩
  · exact ⟨fun _ => rfl, .inl rfl⟩

/-! ### The pseudo-instructions of a command stream (R69) -/

/-- A stream assembles part by part. -/
theorem assemble_append (ls ls' : List StreamLine) : assemble (ls ++ ls') = assemble ls ++ assemble ls' := by
  induction ls with
  | nil => rfl
  | cons l ls ih => rw [List.cons_append, assemble, assemble, ih, List.append_assoc]

/-- Settles O52: ATOMIC opens with the line of SUSPEND and closes with RESUME's, and WAITIDLE asks for `busy`. -/
theorem pseudoInstructionsExpand : Obligations.PseudoInstructionsExpand := by
  refine ⟨fun _ _ => rfl, fun _ => rfl, fun hold byte => ?_, fun hold body => ?_, fun s fuel hold rest hidle => ?_,
    fun s fuel hold rest hactive => ?_⟩
  · rw [reqWord_eq]
    rfl
  · rw [assemble_append]
    rfl
  · simp [playStream, State.outputs, hidle]
  · simp [playStream, State.outputs, hactive, wordCycle, nopWord]

end Sys2Proof.Machine
end

section
/-! Runs of cycles: the packaged induction, the runs in which nothing moves (R13, R131, R154), and the cycles from a
SERVICE or a START to the next SERVICE (R84, R153). -/
namespace Sys2Proof.Machine
open Sys2Proof

/-! ### Inductions over runs -/

/-- The induction over a run, its ticks counted: when the sampling keeps `P` and every cycle without reset, its inputs in
`Q`, takes `P` on by its ticks, the run takes `P` on by its ticks. -/
theorem runCycles_keeps {P : Nat → State → Prop} {Q : CycleInput → Prop}
    (hsample : ∀ k s, P k s → P k (sampleInput s))
    (hcycle : ∀ k s inp, inp.rst = false → Q inp → P k s → P (k + cycleTicks s) (cycleEffect inp s))
    (n : Nat) {k : Nat} {s : State} (h : P k s) (hr : NoReset (inputsDuring n s))
    (hq : ∀ inp ∈ inputsDuring n s, Q inp) :
    ∃ t, runCycles n s = .next t ∧ P (k + ticksDuring n s) t := by
  induction n generalizing k s with
  | zero => exact ⟨s, rfl, h⟩
  | succ n ih =>
    rw [inputsDuring_succ] at hr hq
    obtain ⟨hr0, hr⟩ := List.forall_mem_cons.mp hr
    obtain ⟨hq0, hq⟩ := List.forall_mem_cons.mp hq
    rw [ticksDuring_succ, tickHappens_eq_cycleTicks hr0, ← Nat.add_assoc, runCycles_succ]
    exact ih (hcycle k _ _ hr0 hq0 (hsample k s h)) hr hq

/-- The form of it for runs in which no SERVICE is due: they hold no tick. -/
theorem runCycles_keeps_without_ticks {P : State → Prop} {Q : CycleInput → Prop}
    (hsample : ∀ s, P s → P (sampleInput s)) (hdue : ∀ s, P s → serviceDue s = false)
    (hcycle : ∀ s inp, inp.rst = false → Q inp → P s → P (cycleEffect inp s))
    (n : Nat) {s : State} (h : P s) (hr : NoReset (inputsDuring n s)) (hq : ∀ inp ∈ inputsDuring n s, Q inp) :
    ∃ t, runCycles n s = .next t ∧ ticksDuring n s = 0 ∧ P t := by
  obtain ⟨t, hrun, hticks, ht⟩ := runCycles_keeps (P := fun k t => k = 0 ∧ P t) (k := 0)
    (fun k s hs => ⟨hs.1, hsample s hs.2⟩)
    (fun k s inp hr hq hs => ⟨by simp [cycleTicks, hdue s hs.2, hs.1], hcycle s inp hr hq hs.2⟩) n ⟨rfl, h⟩ hr hq
  exact ⟨t, hrun, by simpa using hticks, ht⟩

/-- The ticks of a run of one more cycle at its end. -/
theorem ticksDuring_succ_last (n : Nat) {s t : State} (hrun : runCycles n s = .next t) :
    ticksDuring (n + 1) s = ticksDuring n s + if tickHappens t then 1 else 0 := by
  induction n generalizing s with
  | zero =>
    cases hrun
    exact (ticksDuring_succ 0 t).trans (Nat.add_comm _ _)
  | succ n ih =>
    rw [runCycles_succ] at hrun
    rw [ticksDuring_succ, ih hrun, ticksDuring_succ n s, Nat.add_assoc]

theorem tickHappens_of_not_due {s : State} (h : serviceDue s = false) : tickHappens s = false := by
  simp [tickHappens, h]

/-- A shorter run samples inputs of the longer one. -/
theorem inputsDuring_subset {m n : Nat} (h : m ≤ n) (s : State) : inputsDuring m s ⊆ inputsDuring n s := by
  induction m generalizing n s with
  | zero => exact List.nil_subset _
  | succ m ih =>
    obtain ⟨n, rfl⟩ := Nat.exists_eq_add_of_le' (Nat.one_le_of_lt h)
    rw [inputsDuring_succ, inputsDuring_succ]
    exact List.cons_subset_cons _ (ih (by omega) _)

/-! ### A cycle stage by stage -/

/-- Of the host commands SUSPEND and RESUME alone write the delivery bit (R23). -/
theorem effect_command_tickIe {i : Instr} (hi : i.isCommand = true) (s : State) :
    (effect i s).tickIe = if i = .resume then true else if i = .suspend then false else s.tickIe := by
  cases i with
  | req byte => cases htx : s.txRequest <;> simp [effect, htx]
  | nop | start | suspend | resume | illegal5 | illegal6 | illegal7 => rfl
  | reset | service | reload | ack | tick | count | fire => exact absurd hi Bool.false_ne_true

@[simp] theorem afterService_tickIe (s : State) : (afterService s).tickIe = s.tickIe := by
  unfold afterService; split <;> simp

@[simp] theorem afterService_tmrOn (s : State) : (afterService s).tmrOn = s.tmrOn := by
  unfold afterService; split <;> simp

/-- A cycle without reset leaves the delivery bit as its command does (R23). -/
theorem cycleEffect_tickIe_of_command {inp : CycleInput} (hr : inp.rst = false) (s : State) :
    (cycleEffect inp s).tickIe =
      if decodeCommand inp.cmd = .resume then true
      else if decodeCommand inp.cmd = .suspend then false else s.tickIe := by
  rw [cycleEffect_tickIe hr, afterCommand, effect_command_tickIe (decodeCommand_isCommand _), afterService_tickIe]

/-- The COUNT of a cycle leaves the encoder to the stages before it. -/
theorem afterCommand_sameEncoder {inp : CycleInput} (hr : inp.rst = false) (s : State) :
    SameEncoder (afterCommand inp s) (cycleEffect inp s) := by
  simp only [cycleEffect, hr, afterCount, Bool.false_eq_true, if_false]
  constructor <;> split <;> simp

/-- In a cycle with no SERVICE due a transmission in progress keeps its place, its byte and its line. -/
theorem cycleEffect_sameEncoder_of_active {inp : CycleInput} {s : State} (hr : inp.rst = false)
    (hdue : serviceDue s = false) (htx : s.txRequest = true) : SameEncoder s (cycleEffect inp s) := by
  rcases cycleEffect_encoder_cases inp hr s with same | ⟨byte, -, hidle, -⟩ <;>
    rw [afterService_of_not_due hdue] at *
  · exact same
  · simp [htx] at hidle

/-- In a cycle with no SERVICE due no stage clears the pending bit (R22). -/
theorem cycleEffect_keeps_pending {inp : CycleInput} {s : State} (hr : inp.rst = false)
    (hdue : serviceDue s = false) (hpending : s.tickPending = true) : (cycleEffect inp s).tickPending = true := by
  have hcommand : (afterCommand inp s).tickPending = true := by
    rw [afterCommand, effect_command_tickPending (decodeCommand_isCommand _), afterService_of_not_due hdue, hpending]
  simp only [cycleEffect, hr, afterCount, Bool.false_eq_true, if_false]
  split
  · rcases countTimer_cases (afterCommand inp s) with ⟨-, -, h⟩ | ⟨-, -, h⟩ <;> simp [h, hcommand]
  · exact hcommand

/-- A cycle whose COUNT is not due ends with its command. -/
theorem cycleEffect_of_not_counting {inp : CycleInput} {s : State} (hr : inp.rst = false)
    (hcount : countDue inp (afterCommand inp s) = false) : cycleEffect inp s = afterCommand inp s := by
  simp [cycleEffect, hr, afterCount, hcount]

/-- A cycle whose COUNT is due ends with it. -/
theorem cycleEffect_of_counting {inp : CycleInput} {s : State} (hr : inp.rst = false)
    (hcount : countDue inp (afterCommand inp s) = true) : cycleEffect inp s = countTimer (afterCommand inp s) := by
  simp [cycleEffect, hr, afterCount, hcount]

/-! ### Delivery suspended (R131) -/

/-- Delivery has been off since the state `r`: the line, a transmission in progress and a pending tick are as they
were. -/
structure SuspendedSince (r s : State) : Prop where
  off : s.tickIe = false
  line : s.outputLevel = r.outputLevel
  frame : r.txRequest = true → SameEncoder r s
  waits : r.tickPending = true → s.tickPending = true

theorem SuspendedSince.not_due {r s : State} (h : SuspendedSince r s) : serviceDue s = false := by
  simp [serviceDue, h.off]

theorem SuspendedSince.sampleInput {r s : State} (h : SuspendedSince r s) :
    SuspendedSince r (Machine.sampleInput s) where
  off := (sampleInput_tickIe s).trans h.off
  line := (sampleInput_outputLevel s).trans h.line
  frame htx := (h.frame htx).trans (sampleInput_sameEncoder s)
  waits hp := (sampleInput_tickPending s).trans (h.waits hp)

theorem SuspendedSince.cycleEffect {r s : State} {inp : CycleInput} (h : SuspendedSince r s) (hr : inp.rst = false)
    (hcmd : decodeCommand inp.cmd ≠ .resume) : SuspendedSince r (Machine.cycleEffect inp s) where
  off := by simp [cycleEffect_tickIe_of_command hr, hcmd, h.off]
  line := (cycleEffect_outputLevel_of_not_due hr h.not_due).trans h.line
  frame htx := (h.frame htx).trans
    (cycleEffect_sameEncoder_of_active hr h.not_due ((h.frame htx).txRequest.trans htx))
  waits hp := cycleEffect_keeps_pending hr h.not_due (h.waits hp)

/-- Settles O48: delivery stays off, so no SERVICE is due in the run nor in the cycle after it. -/
theorem suspendedRunHasNoTick : Obligations.SuspendedRunHasNoTick := by
  intro s n hoff hr hresume
  have start : SuspendedSince s s := ⟨hoff, rfl, fun _ => SameEncoder.refl s, id⟩
  obtain ⟨t, hrun, hticks, ht⟩ := runCycles_keeps_without_ticks (fun _ h => h.sampleInput) (fun _ h => h.not_due)
    (fun _ _ hr hcmd h => h.cycleEffect hr hcmd) n start hr hresume
  have hnext : ticksDuring (n + 1) s = 0 := by
    simp [ticksDuring_succ_last n hrun, hticks, tickHappens_of_not_due ht.not_due]
  refine ⟨t, hrun, hticks, hnext, ht.line, ht.off, fun htx => ?_, ht.waits⟩
  have same := ht.frame htx
  exact ⟨same.txRequest.trans htx, same.pos, same.payloadByte⟩

/-! ### Before START (R154) -/

/-- The timer has been off and nothing pending since the state `r`: the line and the timer are as they were, and a
transmission requested stands. -/
structure UnstartedSince (r s : State) : Prop where
  off : s.tmrOn = false
  quiet : s.tickPending = false
  line : s.outputLevel = r.outputLevel
  timer : s.tmr = r.tmr
  request : r.txRequest = true → s.txRequest = true

theorem UnstartedSince.not_due {r s : State} (h : UnstartedSince r s) : serviceDue s = false := by
  simp [serviceDue, h.quiet]

theorem UnstartedSince.sampleInput {r s : State} (h : UnstartedSince r s) :
    UnstartedSince r (Machine.sampleInput s) where
  off := (sampleInput_tmrOn s).trans h.off
  quiet := (sampleInput_tickPending s).trans h.quiet
  line := (sampleInput_outputLevel s).trans h.line
  timer := (sampleInput_tmr s).trans h.timer
  request htx := (sampleInput_txRequest s).trans (h.request htx)

theorem UnstartedSince.cycleEffect {r s : State} {inp : CycleInput} (h : UnstartedSince r s) (hr : inp.rst = false)
    (hcmd : decodeCommand inp.cmd ≠ .start) : UnstartedSince r (Machine.cycleEffect inp s) := by
  obtain ⟨htmr, hon⟩ := effect_command_timer (decodeCommand_isCommand inp.cmd) hcmd s
  have hcommand : afterCommand inp s = effect (decodeCommand inp.cmd) s := by
    rw [afterCommand, afterService_of_not_due h.not_due]
  have hcycle : Machine.cycleEffect inp s = effect (decodeCommand inp.cmd) s := by
    rw [cycleEffect_of_not_counting hr (by simp [countDue, hcommand, hon, h.off]), hcommand]
  refine ⟨?_, ?_, (cycleEffect_outputLevel_of_not_due hr h.not_due).trans h.line, ?_, fun htx => ?_⟩
  · rw [hcycle, hon, h.off]
  · rw [hcycle, effect_command_tickPending (decodeCommand_isCommand _), h.quiet]
  · rw [hcycle, htmr, h.timer]
  · have same := cycleEffect_sameEncoder_of_active hr h.not_due (h.request htx)
    exact same.txRequest.trans (h.request htx)

theorem isReq_eq_false {i : Instr} (h : ∀ byte, i ≠ .req byte) : isReq i = false := by
  cases i with
  | req byte => exact absurd rfl (h byte)
  | _ => rfl

/-- A cycle whose command is not REQ and in which no SERVICE is due leaves the encoder. -/
theorem cycleEffect_sameEncoder_of_quiet {inp : CycleInput} {s : State} (hr : inp.rst = false)
    (hdue : serviceDue s = false) (hreq : ∀ byte, decodeCommand inp.cmd ≠ .req byte) :
    SameEncoder s (cycleEffect inp s) := by
  have same := cycleEffect_sameEncoder_of_not_req hr (isReq_eq_false hreq) s
  rwa [afterService_of_not_due hdue] at same

/-- Settles O49: the timer stays off, so no COUNT is due; without a REQ the commands leave the encoder too. -/
theorem nothingMovesBeforeBoot : Obligations.NothingMovesBeforeBoot := by
  intro s n hoff hquiet hr hstart
  have start : UnstartedSince s s := ⟨hoff, hquiet, rfl, rfl, id⟩
  obtain ⟨t, hrun, hticks, ht⟩ := runCycles_keeps_without_ticks (fun _ h => h.sampleInput) (fun _ h => h.not_due)
    (fun _ _ hr hcmd h => h.cycleEffect hr hcmd) n start hr hstart
  refine ⟨t, hrun, hticks, ht.line, ht.timer, ht.off, ht.quiet, ht.request, fun hreq => ?_⟩
  have hcommands : ∀ inp ∈ inputsDuring n s,
      decodeCommand inp.cmd ≠ .start ∧ ∀ byte, decodeCommand inp.cmd ≠ .req byte :=
    fun inp hmem => ⟨hstart inp hmem, fun byte => hreq byte inp hmem⟩
  obtain ⟨t', hrun', -, -, same⟩ :=
    runCycles_keeps_without_ticks (P := fun u => UnstartedSince s u ∧ SameEncoder s u)
      (fun _ h => ⟨h.1.sampleInput, h.2.trans (sampleInput_sameEncoder _)⟩) (fun _ h => h.1.not_due)
      (fun _ _ hr hcmd h => ⟨h.1.cycleEffect hr hcmd.1,
        h.2.trans (cycleEffect_sameEncoder_of_quiet hr h.1.not_due hcmd.2)⟩)
      n ⟨start, SameEncoder.refl s⟩ hr hcommands
  cases hrun.symm.trans hrun'
  exact ⟨same.txRequest, same.payloadByte, same.pos⟩

/-! ### Idle without a request (R91, R127) -/

/-- The machine has been idle since the state `r`, for `k` ticks: its place and byte are as they were, its line too, or
LOW after a tick. -/
structure IdleSince (r : State) (k : Nat) (s : State) : Prop where
  idle : s.txRequest = false
  byte : s.payloadByte = r.payloadByte
  place : s.pos = r.pos
  line : s.outputLevel = if k = 0 then r.outputLevel else .low

theorem SameEncoder.idleSince {r s t : State} {k : Nat} (same : SameEncoder s t) (h : IdleSince r k s) :
    IdleSince r k t where
  idle := same.txRequest.trans h.idle
  byte := same.payloadByte.trans h.byte
  place := same.pos.trans h.place
  line := same.outputLevel.trans h.line

/-- An idle SERVICE forces the line LOW and leaves the rest of the encoder (R91). -/
theorem IdleSince.afterService {r s : State} {k : Nat} (h : IdleSince r k s) :
    IdleSince r (k + cycleTicks s) (Machine.afterService s) := by
  unfold cycleTicks
  cases hdue : serviceDue s with
  | false => rwa [afterService_of_not_due hdue]
  | true =>
    rw [afterService_of_due hdue]
    refine (serviceTick_sameEncoder s).idleSince ?_
    rw [onTick_of_idle h.idle]
    exact ⟨h.idle, h.byte, h.place, rfl⟩

theorem IdleSince.cycleEffect {r s : State} {k : Nat} {inp : CycleInput} (h : IdleSince r k s) (hr : inp.rst = false)
    (hreq : ∀ byte, decodeCommand inp.cmd ≠ .req byte) :
    IdleSince r (k + cycleTicks s) (Machine.cycleEffect inp s) :=
  (cycleEffect_sameEncoder_of_not_req hr (isReq_eq_false hreq) s).idleSince h.afterService

/-- Settles O50: the machine stays idle, and each of its ticks forces the line LOW. -/
theorem idleStaysIdle : Obligations.IdleStaysIdle := by
  intro s n hidle hr hreq
  obtain ⟨t, hrun, ht⟩ := runCycles_keeps (P := IdleSince s)
    (fun _ u h => (sampleInput_sameEncoder u).idleSince h) (fun _ _ _ hr hcmd h => h.cycleEffect hr hcmd) n
    (k := 0) ⟨hidle, rfl, rfl, rfl⟩ hr (fun inp hmem byte => hreq byte inp hmem)
  rw [Nat.zero_add] at ht
  exact ⟨t, hrun, ht.idle, ht.byte, ht.place, fun h0 => ht.line.trans (if_pos h0),
    fun h1 => ht.line.trans (if_neg (Nat.one_le_iff_ne_zero.mp h1))⟩

/-! ### A request in the cycle of a frame's last tick (R50, R118) -/

/-- Place 31 is the second half of a cell (R17). -/
theorem halfPhase_of_pos_eq_31 {s : State} (h : s.pos = 31#5) : s.halfPhase = .secondHalf := by
  have hodd := pos_getLsbD_zero s
  cases hhalf : s.halfPhase with
  | firstHalf => simp [h, hhalf, HalfPhase.bits] at hodd
  | secondHalf => rfl

/-- The SERVICE of place 31 ends the frame and inverts the line (R96, R99). -/
theorem serviceTick_of_pos_eq_31 {s : State} (htx : s.txRequest = true) (h31 : s.pos = 31#5) :
    (serviceTick s).txRequest = false ∧ (serviceTick s).outputLevel = s.outputLevel.inv := by
  refine ⟨by simp [serviceTick_txRequest, h31], ?_⟩
  rw [(serviceTick_sameEncoder s).outputLevel, onTick_inverts_of_secondHalf htx (halfPhase_of_pos_eq_31 h31)]

/-- The command stage comes after the SERVICE that ends the frame: it finds the machine idle and accepts the request. -/
theorem cycleEffect_req_of_pos_eq_31 {inp : CycleInput} {s : State} {byte : Byte} (hr : inp.rst = false)
    (hcmd : decodeCommand inp.cmd = .req byte) (hdue : serviceDue s = true) (htx : s.txRequest = true)
    (h31 : s.pos = 31#5) :
    SameEncoder (acceptRequest byte (serviceTick s)) (cycleEffect inp s) ∧ (cycleEffect inp s).fault = s.fault := by
  have hcommand : afterCommand inp s = acceptRequest byte (serviceTick s) := by
    simp [afterCommand, afterService_of_due hdue, hcmd, effect, (serviceTick_of_pos_eq_31 htx h31).1]
  have same := afterCommand_sameEncoder hr s
  have hfault := cycleEffect_fault hr s
  rw [hcommand] at same hfault
  exact ⟨same, hfault.trans (serviceTick_fault s)⟩

/-- Settles O51: the new request stands at place 0 and the line is the one the last TICK has inverted. -/
theorem requestInTheLastTickCycleIsAccepted : Obligations.RequestInTheLastTickCycleIsAccepted := by
  intro s cntEn byte hdue htx h31
  obtain ⟨same, hfault⟩ := cycleEffect_req_of_pos_eq_31 (inp := ⟨false, cntEn, 0x100#11 ||| byte.setWidth 11⟩) rfl
    (decodeCommand_reqWord byte) hdue htx h31
  refine ⟨_, cycleWith_eq _ s, same.txRequest, same.pos.trans (acceptRequest_pos _ _), same.payloadByte, hfault, ?_⟩
  rw [same.outputLevel, acceptRequest_outputLevel, (serviceTick_of_pos_eq_31 htx h31).2]
  exact Level.inv_ne _

/-! ### From a value of the timer to its firing (R76 to R78) -/

/-- Settles O22: the value counts down to 0, and the next COUNT fires. -/
theorem valuePlusOneCountsToTheFiring : Obligations.ValuePlusOneCountsToTheFiring := by
  refine fun s n => ⟨fun hle => runOps_count_of_le n s hle, fun hn => ?_⟩
  subst hn
  exact runOps_count_fires _ s rfl

/-- `left` cycles of COUNT remain to the firing, and with none left the tick is pending (R78). -/
structure CountingDown (left : Nat) (s : State) : Prop where
  fired : s.tickPending = true ↔ left = 0
  running : left ≠ 0 → s.tmrOn = true ∧ s.tmr.toNat + 1 = left

/-- A COUNT leaves as many further COUNTs to the firing as the timer's value was (R76, R77). -/
theorem countTimer_countingDown {s : State} (hon : s.tmrOn = true) (hquiet : s.tickPending = false) :
    CountingDown s.tmr.toNat (countTimer s) := by
  rcases countTimer_cases s with ⟨h0, -, hpending⟩ | ⟨hne, htmr, hpending⟩
  · rw [h0]
    exact ⟨by simp [hpending], fun h => absurd rfl h⟩
  · have hpos : s.tmr.toNat ≠ 0 := fun h => hne (BitVec.eq_of_toNat_eq h)
    refine ⟨by simp [hpending, hquiet, hpos], fun _ => ⟨by simp [hon], ?_⟩⟩
    rw [htmr, toNat_sub_one_of_ne hne]
    omega

theorem CountingDown.not_due {left : Nat} {s : State} (h : CountingDown (left + 1) s) : serviceDue s = false := by
  have hquiet : s.tickPending = false := by simpa using h.fired
  simp [serviceDue, hquiet]

theorem CountingDown.sampleInput {left : Nat} {s : State} (h : CountingDown left s) :
    CountingDown left (Machine.sampleInput s) where
  fired := by simpa using h.fired
  running := by simpa using h.running

/-- The inputs of a cycle in which the timer counts on: no reset, `cnt_en` = 1, no START. -/
def CountsOn (inp : CycleInput) : Prop :=
  inp.rst = false ∧ inp.cntEn = true ∧ decodeCommand inp.cmd ≠ .start

/-- A cycle in which the timer counts on ends with the COUNT of the value that its SERVICE leaves. -/
theorem cycleEffect_countingDown {inp : CycleInput} {s : State} (hinp : CountsOn inp) (hon : s.tmrOn = true)
    (hquiet : (afterService s).tickPending = false) :
    CountingDown (afterService s).tmr.toNat (cycleEffect inp s) := by
  obtain ⟨hr, hcnt, hstart⟩ := hinp
  obtain ⟨htmr, htmrOn⟩ := effect_command_timer (decodeCommand_isCommand inp.cmd) hstart (afterService s)
  have hon' : (afterCommand inp s).tmrOn = true := by rw [afterCommand, htmrOn, afterService_tmrOn, hon]
  have hquiet' : (afterCommand inp s).tickPending = false := by
    rw [afterCommand, effect_command_tickPending (decodeCommand_isCommand _), hquiet]
  have htmr' : (afterCommand inp s).tmr = (afterService s).tmr := htmr
  rw [cycleEffect_of_counting hr (by simp [countDue, hon', hcnt]), ← htmr']
  exact countTimer_countingDown hon' hquiet'

theorem CountingDown.cycleEffect {left : Nat} {s : State} {inp : CycleInput} (h : CountingDown (left + 1) s)
    (hinp : CountsOn inp) : CountingDown left (Machine.cycleEffect inp s) := by
  obtain ⟨hon, htmr⟩ := h.running (Nat.succ_ne_zero left)
  have hquiet : s.tickPending = false := by simpa using h.fired
  have hserved := afterService_of_not_due h.not_due
  have hnext := cycleEffect_countingDown hinp hon (hserved.symm ▸ hquiet)
  rwa [hserved, Nat.succ_inj.mp htmr] at hnext

/-- A run not longer than the cycles left goes on by its cycles and holds no tick. -/
theorem runCycles_countingDown (n : Nat) {left : Nat} {s : State} (h : CountingDown left s) (hn : n ≤ left)
    (hinps : ∀ inp ∈ inputsDuring n s, CountsOn inp) :
    ∃ t, runCycles n s = .next t ∧ CountingDown (left - n) t ∧ ticksDuring n s = 0 := by
  induction n generalizing left s with
  | zero => exact ⟨s, rfl, h, rfl⟩
  | succ n ih =>
    obtain ⟨left, rfl⟩ := Nat.exists_eq_add_of_le' (Nat.one_le_of_lt hn)
    rw [inputsDuring_succ] at hinps
    obtain ⟨hinp, hinps⟩ := List.forall_mem_cons.mp hinps
    rw [runCycles_succ, ticksDuring_succ, tickHappens_of_not_due h.not_due, Nat.add_sub_add_right]
    simpa using ih (h.sampleInput.cycleEffect hinp) (Nat.le_of_succ_le_succ hn) hinps

/-! ### Delivery on at the end of a run (R115, R116) -/

/-- The commands of a run that begins with the delivery bit `on` leave delivery on: it is on and no SUSPEND comes, or a
RESUME comes and no SUSPEND after it. -/
def LeavesDeliveryOn (on : Bool) (inps : List CycleInput) : Prop :=
  on = true ∧ NeverCommands .suspend inps ∨
    ∃ (k : Nat) (inp : CycleInput), inps[k]? = some inp ∧ decodeCommand inp.cmd = .resume ∧
      NeverCommands .suspend (inps.drop (k + 1))

/-- What the first cycle's command leaves to the rest of the run. -/
theorem LeavesDeliveryOn.tail {on : Bool} {inp : CycleInput} {inps : List CycleInput}
    (h : LeavesDeliveryOn on (inp :: inps)) :
    LeavesDeliveryOn
      (if decodeCommand inp.cmd = .resume then true else if decodeCommand inp.cmd = .suspend then false else on)
      inps := by
  rcases h with ⟨hon, hnever⟩ | ⟨k, inp', hk, hresume, hnever⟩
  · obtain ⟨hcmd, hnever⟩ := List.forall_mem_cons.mp hnever
    exact .inl ⟨by simp [hcmd, hon], hnever⟩
  · cases k with
    | zero =>
      obtain rfl : inp = inp' := by simpa using hk
      exact .inl ⟨if_pos hresume, by simpa using hnever⟩
    | succ k => exact .inr ⟨k, inp', by simpa using hk, hresume, by simpa using hnever⟩

/-- Such a run without reset ends with delivery on. -/
theorem runCycles_tickIe (n : Nat) {s t : State} (hr : NoReset (inputsDuring n s))
    (h : LeavesDeliveryOn s.tickIe (inputsDuring n s)) (hrun : runCycles n s = .next t) : t.tickIe = true := by
  induction n generalizing s with
  | zero =>
    cases hrun
    rcases h with ⟨hon, -⟩ | ⟨k, inp, hk, -⟩
    · exact hon
    · simp [inputsDuring] at hk
  | succ n ih =>
    rw [inputsDuring_succ] at hr h
    obtain ⟨hr0, hr⟩ := List.forall_mem_cons.mp hr
    rw [runCycles_succ] at hrun
    refine ih hr ?_ hrun
    rw [cycleEffect_tickIe_of_command hr0, sampleInput_tickIe]
    exact h.tail

/-! ### The next SERVICE (R84, R153) -/

/-- Where delivery is on by the firing, a SERVICE is due exactly when no cycle is left. -/
theorem CountingDown.serviceDue_iff {left : Nat} {s : State} (h : CountingDown left s)
    (hie : left = 0 → s.tickIe = true) : serviceDue s = true ↔ left = 0 := by
  rw [serviceDue, Bool.and_eq_true, h.fired]
  exact ⟨And.left, fun h0 => ⟨h0, hie h0⟩⟩

/-- One cycle whose COUNT acts on `v`, and the cycles after it up to the firing: a SERVICE is due after `v + 1` cycles
in all, and the ticks are those of the first cycle. -/
theorem runCycles_to_next_service {s : State} {v n : Nat}
    (hfirst : CountingDown v (cycleEffect (nextInput s) (sampleInput s)))
    (hrest : ∀ inp ∈ (inputsDuring (v + 1) s).tail, CountsOn inp) (hr : NoReset (inputsDuring (v + 1) s))
    (hie : LeavesDeliveryOn s.tickIe (inputsDuring (v + 1) s)) (h1 : 1 ≤ n) (hn : n ≤ v + 1) :
    ∃ t, runCycles n s = .next t ∧ (serviceDue t = true ↔ n = v + 1) ∧
      ticksDuring n s = if tickHappens s then 1 else 0 := by
  obtain ⟨m, rfl⟩ := Nat.exists_eq_add_of_le' h1
  have hm : m ≤ v := Nat.le_of_succ_le_succ hn
  rw [inputsDuring_succ, List.tail_cons] at hrest
  obtain ⟨t, hrun, hdown, hticks⟩ :=
    runCycles_countingDown m hfirst hm fun inp hmem => hrest inp (inputsDuring_subset hm _ hmem)
  rw [← runCycles_succ] at hrun
  have hlast : v - m = 0 ↔ m + 1 = v + 1 := by omega
  refine ⟨t, hrun, ?_, by rw [ticksDuring_succ, hticks, Nat.add_zero]⟩
  rw [← hlast]
  refine hdown.serviceDue_iff fun h0 => ?_
  rw [hlast.mp h0] at hrun
  exact runCycles_tickIe (v + 1) hr hie hrun

/-- Settles O27: the COUNT of the SERVICE's own cycle acts on HANDLER_RELOAD. -/
theorem servicesAreReloadPlusOneCyclesApart : Obligations.ServicesAreReloadPlusOneCyclesApart := by
  intro s n hdue hon hr hcnt hstart hsuspend h1 hn
  have hinps : ∀ inp ∈ inputsDuring (s.handlerReload.toNat + 1) s, CountsOn inp :=
    fun inp hmem => ⟨hr inp hmem, hcnt inp hmem, hstart inp hmem⟩
  have hall := hinps
  rw [inputsDuring_succ] at hall
  obtain ⟨hinp, -⟩ := List.forall_mem_cons.mp hall
  have hie : s.tickIe = true := (Bool.and_eq_true_iff.mp hdue).2
  have hserved : afterService (sampleInput s) = serviceTick (sampleInput s) :=
    afterService_of_due (by simpa [serviceDue] using hdue)
  have hfirst := cycleEffect_countingDown hinp ((sampleInput_tmrOn s).trans hon)
    (by rw [hserved, serviceTick_tickPending])
  rw [hserved, serviceTick_tmr, sampleInput_handlerReload] at hfirst
  obtain ⟨t, hrun, hnext, hticks⟩ := runCycles_to_next_service hfirst
    (fun inp hmem => hinps inp (List.mem_of_mem_tail hmem)) hr (.inl ⟨hie, hsuspend⟩) h1 hn
  have hnow : tickHappens s = true := by simp [tickHappens, hdue, hinp.1]
  exact ⟨t, hrun, hnext, hticks.trans (if_pos hnow)⟩

/-- Settles O28: the COUNT of START's own cycle acts on INIT_PRELOAD. -/
theorem firstServiceAfterStart : Obligations.FirstServiceAfterStart := by
  rintro s inps n rfl hquiet hcmd hr hcnt hstart hie h1 hn
  have hmem : nextInput s ∈ inputsDuring (s.initPreload.toNat + 1) s := by simp [inputsDuring_succ]
  have hdue : serviceDue (sampleInput s) = false := by simp [serviceDue, hquiet]
  have hfirst : CountingDown s.initPreload.toNat (cycleEffect (nextInput s) (sampleInput s)) := by
    rw [cycleEffect_start (hr _ hmem) (hcnt _ hmem) hcmd, afterService_of_not_due hdue, sampleInput_initPreload]
    exact countTimer_countingDown (s := startTimer (loadTimer s.initPreload (sampleInput s))) rfl
      (by simpa using hquiet)
  have hrest : ∀ inp ∈ (inputsDuring (s.initPreload.toNat + 1) s).tail, CountsOn inp := fun inp htail =>
    ⟨hr inp (List.mem_of_mem_tail htail), hcnt inp (List.mem_of_mem_tail htail), hstart inp htail⟩
  obtain ⟨t, hrun, hnext, hticks⟩ := runCycles_to_next_service hfirst hrest hr hie h1 hn
  have hnow : tickHappens s = false := tickHappens_of_not_due (by simp [serviceDue, hquiet])
  exact ⟨t, hrun, hnext, by rw [hticks, hnow]; rfl⟩

end Sys2Proof.Machine
end
